-- ==== Sys2Proof/Word.lean ====
section
/-! DEFINITION. The bit-vector types of the AS5045 SSI engine's registers and ports (spec/00_scope.md R10, R11):
bit 0 is the least significant bit of each. -/
namespace Sys2Proof

/-- One command word, `cmd_word[7:0]` (R80). -/
abbrev CmdWord := BitVec 8

/-- One pin level, 0 or 1 (R13, R34). -/
abbrev Level := BitVec 1

/-- One 18-bit frame (R7, R17). -/
abbrev Frame := BitVec 18

/-- One raw count, 12 bits unsigned, `[0, CPR)` (R10, R16). -/
abbrev Raw := BitVec 12

/-- The 4-bit `OP` field of a command word (R81). -/
abbrev OpCode := BitVec 4

end Sys2Proof
end

