-- ==== Sys2Proof/Config.lean ====
section
/-! DEFINITION. What is fixed for the life of one block and is no register (spec/00_scope.md R7, R8, R9; spec/10_state.md
R38, R39): the constants, the parameters, and the values the block draws from agents it does not control. -/
namespace Sys2Proof

/-- Counts per revolution, fixed at 4096 (R7, R8). -/
def cpr : Int := 4096

/-- Bits of one frame (R7). -/
def frameBits : Nat := 18

/-- Bits of the position field, `frame[17:6]` (R7). -/
def posBits : Nat := 12

/-- `STATUS_BITS = FRAME_BITS - POS_BITS`, the low bits of the frame the block never reads (R7, R105). -/
def statusBits : Nat := frameBits - posBits

/-- `VEL_MAX_S = 0.5` s in microseconds (R7, R147). -/
def velMaxUs : Nat := 500000

/-- `VEL_FALLBACK_S = 1e-3` s in microseconds (R7, R147). -/
def velFallbackUs : Nat := 1000

/-- The capability constant `HAS_ABS` (R39). -/
def hasAbs : Int := 1

/-- The capability constant `NEEDS_SEARCH` (R39). -/
def needsSearch : Int := 0

/-- `CS_END_MODE`: the level chip-select takes at the end of a transaction (R9). -/
inductive CsEndMode where
  /-- not `CS_ACTIVE` -/
  | release
  /-- `CS_ACTIVE` -/
  | reassert
  deriving DecidableEq, Repr

/-- `ABS_RET_SIGN`: the sign of the value `CAL_ABS_ZERO` returns (R9, R176). -/
inductive RetSign where
  | plus
  | minus
  deriving DecidableEq, Repr

/-- The parameters of R9 that are plain data. `RadConv` and `VelConv` are no fields: the state holds what they are
applied to (`RealValue`, log entry 4), so that every claim holds for every choice of them (R141, R149). -/
structure Config where
  /-- `TS_BITS`, the width of the timestamp input -/
  tsBits : Nat
  /-- `TURN_BITS`, the width of the signed turn counter -/
  turnBits : Nat
  /-- `T_SETTLE`, the minimum dwell between successive pin edges of a transaction -/
  tSettle : Nat
  /-- `T_CS_IDLE`, the minimum time between one transaction and the next -/
  tCsIdle : Nat
  /-- `CS_ACTIVE`, the level that asserts chip-select -/
  csActive : Level
  /-- `CS_END_MODE` -/
  csEndMode : CsEndMode
  /-- `ABS_RET_SIGN` -/
  absRetSign : RetSign
  deriving DecidableEq, Repr

/-- What R9 asks of the parameters (`T_SETTLE > 0`); a counter and a timestamp have at least one bit (log entry 2). -/
abbrev Config.wf (c : Config) : Prop := 0 < c.tsBits ∧ 0 < c.turnBits ∧ 0 < c.tSettle

/-- Free value: `T_SETTLE` less one; R9 leaves `T_SETTLE` OPEN but positive (log entry 2). -/
opaque Config.openSettle : Nat

/-- Free value: `T_CS_IDLE`, which R9 leaves OPEN (log entry 2). -/
opaque Config.openCsIdle : Nat

/-- Free value: the level the sensor drives at a draw no scripted level covers (R103, D12; log entry 3). -/
opaque Config.dataLevel : Nat → Level

/-- Free value: the timestamp the timebase gives at a draw no scripted reading covers (R46, D12; log entry 3). -/
opaque Config.timestamp : Nat → Nat

/-- Free value: what `RSP_A` holds where `READ_FRAME`'s frame does not fit `DCOUNT_BITS` (log entry 5). -/
opaque Config.wideFrame : Nat → Int

/-- The parameters at the defaults of R9; the two OPEN ones at a free value. -/
def Config.default : Config where
  tsBits := 32
  turnBits := 32
  tSettle := Config.openSettle + 1
  tCsIdle := Config.openCsIdle
  csActive := 0
  csEndMode := .release
  absRetSign := .plus

end Sys2Proof
end

