-- ==== Sys2Proof/Syntax.lean ====
section
/-! DEFINITION. The ten commands of the opcode map (spec/30_encoding.md R83), one constructor per row of
spec/opcode_table.json, and the fields of a command word (R81). -/
namespace Sys2Proof

/-- A command of the block (R83). Only `SET_DIR` has an operand, the bit `ARG` (R82). -/
inductive Instr where
  /-- `INIT` (R142) -/
  | init
  /-- `GET_ANGLE` (R145) -/
  | getAngle
  /-- `GET_VELOCITY` (R150) -/
  | getVelocity
  /-- `CAL_REL_ZERO` (R172) -/
  | calRelZero
  /-- `CAL_ABS_ZERO` (R175) -/
  | calAbsZero
  /-- `HAS_ABS_ZERO` (R178) -/
  | hasAbsZero
  /-- `NEEDS_ABS_SEARCH` (R180) -/
  | needsAbsSearch
  /-- `CLOSE` (R110) -/
  | close
  /-- `SET_DIR a` (R184) -/
  | setDir (arg : BitVec 1)
  /-- `READ_FRAME` (R107) -/
  | readFrame
  deriving DecidableEq, Repr

/-- The three fields of a command word (R81). -/
structure CommandFields where
  rsv : BitVec 3
  arg : BitVec 1
  op : OpCode
  deriving DecidableEq, Repr

/-- Why a command word is illegal, in the order R85 tests it. -/
inductive IllegalWord where
  /-- `RSV != 0b000` -/
  | reservedBits
  /-- `OP` is `0x0` or `0xB` to `0xF` -/
  | reservedOpcode
  /-- `ARG = 1` on a command other than `SET_DIR` -/
  | strayArgument
  deriving DecidableEq, Repr

end Sys2Proof
end

