-- ==== Sys2Proof/WellFormed.lean ====
section
/-! DEFINITION. The three conditions a command word's fields meet to be legal (spec/30_encoding.md R84), one check each. -/
namespace Sys2Proof

/-- `RSV` is `0b000` (R81, R84). -/
def CommandFields.rsvOk (f : CommandFields) : Bool := f.rsv == 0

/-- `OP` is in `0x1` to `0xA` (R84). -/
def CommandFields.opOk (f : CommandFields) : Bool := 0x1#4 ≤ f.op && f.op ≤ 0xA#4

/-- `ARG` is 0 unless `OP` is `0x9` (R81, R84). -/
def CommandFields.argOk (f : CommandFields) : Bool := f.arg == 0 || f.op == 0x9

/-- The fields are those of a legal command word (R84). -/
def CommandFields.wellFormed (f : CommandFields) : Bool := f.rsvOk && f.opOk && f.argOk

end Sys2Proof
end

