-- ==== Sys2Proof/Decode.lean ====
section
/-! DEFINITION. The decoder and the encoder of command words (spec/30_encoding.md R80 to R85): one 8-bit word per
command, decoding total on all 256 words. -/
namespace Sys2Proof

/-- The fields of a word (R81). -/
def fieldsOf (w : CmdWord) : CommandFields where
  rsv := w.extractLsb' 5 3
  arg := w.extractLsb' 4 1
  op := w.extractLsb' 0 4

/-- The word with these fields: `{RSV, ARG, OP}` (R81). -/
def wordOf (f : CommandFields) : CmdWord := f.rsv ++ f.arg ++ f.op

/-- The command an opcode selects (R83), with the operand bit for `SET_DIR` (R82). -/
def ofOpcode (op : OpCode) (arg : BitVec 1) : Option Instr :=
  if op = 0x1 then some .init
  else if op = 0x2 then some .getAngle
  else if op = 0x3 then some .getVelocity
  else if op = 0x4 then some .calRelZero
  else if op = 0x5 then some .calAbsZero
  else if op = 0x6 then some .hasAbsZero
  else if op = 0x7 then some .needsAbsSearch
  else if op = 0x8 then some .close
  else if op = 0x9 then some (.setDir arg)
  else if op = 0xA then some .readFrame
  else none

/-- Decoding (R85): the three tests in the order of the rule, each rejection under its own name. -/
def decode (w : CmdWord) : Except IllegalWord Instr :=
  let f := fieldsOf w
  if f.rsv ≠ 0 then .error .reservedBits
  else match ofOpcode f.op f.arg with
    | none => .error .reservedOpcode
    | some i => if f.arg = 1 ∧ f.op ≠ 0x9 then .error .strayArgument else .ok i

/-- The opcode of a command (R83). -/
def opcodeOf : Instr → OpCode
  | .init => 0x1
  | .getAngle => 0x2
  | .getVelocity => 0x3
  | .calRelZero => 0x4
  | .calAbsZero => 0x5
  | .hasAbsZero => 0x6
  | .needsAbsSearch => 0x7
  | .close => 0x8
  | .setDir _ => 0x9
  | .readFrame => 0xA

/-- The operand bit of a command: `ARG` of `SET_DIR`, 0 for every other (R81, R82). -/
def argOf : Instr → BitVec 1
  | .setDir a => a
  | .init => 0
  | .getAngle => 0
  | .getVelocity => 0
  | .calRelZero => 0
  | .calAbsZero => 0
  | .hasAbsZero => 0
  | .needsAbsSearch => 0
  | .close => 0
  | .readFrame => 0

/-- The fields of a command's word. -/
def instrFields (i : Instr) : CommandFields := ⟨0, argOf i, opcodeOf i⟩

/-- The word a command is encoded by (R81, R83, R88). -/
def encode (i : Instr) : CmdWord := wordOf (instrFields i)

/-- The command's word is legal (R84). -/
def wellFormed (i : Instr) : Bool := (instrFields i).wellFormed

/-- The host's reading of one opcode-table word: its low `nbits` bits are the command word, bits above are 0. -/
def decodeTableWord (nbits w : Nat) : Option Instr :=
  match decode (BitVec.ofNat 8 (w % 2 ^ nbits)) with
  | .ok i => some i
  | .error _ => none

end Sys2Proof
end

