-- ==== Sys2Proof/Machine/State.lean ====
section
/-! DEFINITION. The state of the block (spec/10_state.md R20 to R37), as plain data, and its reset value (R42). Registers
whose width is a parameter are integers; `Sys2Proof.Machine.Inv` (Safety.lean) states their ranges (log entry 1). -/
namespace Sys2Proof.Machine

open Sys2Proof

/-- `LSTATE`, the lifecycle state (R27). -/
inductive LState where
  | uninit
  | ready
  | closed
  | faulted
  deriving DecidableEq, Repr

/-- `FAULT_CODE`: 0 to 3; the codes 4 to 15 are never written (R29, R200). -/
inductive FaultCode where
  | noFault
  | illegalCmd
  | notReady
  | turnOverflow
  deriving DecidableEq, Repr

/-- `LAST_WRAP`: the wrap decision of an angle update; `0b10` is never written (R31). -/
inductive Wrap where
  | noWrap
  | incremented
  | decremented
  deriving DecidableEq, Repr

/-- A pin's direction: `OUT`, or `IN` (high impedance) (R34). -/
inductive PinMode where
  | output
  | input
  deriving DecidableEq, Repr

/-- `PHASE`, the transaction sequencer's place in its sequence (R36). -/
inductive Phase where
  | idle
  | csSetup
  | clkSetup
  | bitHi
  | bitLo
  | endTxn
  deriving DecidableEq, Repr

/-- A real-valued result: the configuration function it comes from and the integers it is applied to (R14, R141, R149;
log entry 4). -/
inductive RealValue where
  /-- `RadConv(counts)` -/
  | rad (counts : Int)
  /-- `VelConv(d, eff_us)` -/
  | radPerSec (d : Int) (effUs : Nat)
  deriving DecidableEq, Repr

/-- One event of the pin trace (R102), with the mode changes and the dwells beside it. -/
inductive PinEvent where
  /-- `CS:=level` -/
  | cs (level : Level)
  /-- `CLK:=level` -/
  | clk (level : Level)
  /-- `S(i)`, a sample of `DATA` -/
  | sample (level : Level)
  /-- `PinMode(CS)` -/
  | csMode (mode : PinMode)
  /-- `PinMode(CLK)` -/
  | clkMode (mode : PinMode)
  /-- `Wait(t)`: at least `t` passes between the event before it and the event after it (R13, R252) -/
  | dwell (atLeast : Nat)
  deriving DecidableEq, Repr

/-- The tracker registers (R21 to R26). -/
structure Tracker where
  /-- `PREV_RAW`, 12 bits unsigned (R21) -/
  prevRaw : Raw
  /-- `TURNS`, `TURN_BITS` bits signed (R22) -/
  turns : Int
  /-- `ZERO_OFS`, 13 bits signed, `[-4095, 4095]` (R23) -/
  zeroOfs : Int
  /-- `PREV_ANGLE`, `TURN_BITS + 13` bits signed (R24) -/
  prevAngle : Int
  /-- `PREV_TS`, `TS_BITS` bits unsigned (R26) -/
  prevTs : Nat
  /-- `NAT_DIR`, 1 bit (R25) -/
  natDir : BitVec 1
  deriving DecidableEq, Repr

/-- The control and status registers (R27 to R31). -/
structure Control where
  /-- `LSTATE`, 2 bits (R27) -/
  lstate : LState
  /-- `BUSY`, 1 bit (R28) -/
  busy : Bool
  /-- `FAULT_CODE`, 4 bits (R29) -/
  faultCode : FaultCode
  /-- `FAULT_CMD`, 8 bits (R30) -/
  faultCmd : CmdWord
  /-- `LAST_WRAP`, 2 bits (R31) -/
  lastWrap : Wrap
  deriving DecidableEq, Repr

/-- The response registers (R33). -/
structure Response where
  /-- `RSP_VALID`, 1 bit -/
  valid : Bool
  /-- `RSP_OP`, 4 bits -/
  op : OpCode
  /-- `RSP_A`, `TURN_BITS + 14` bits signed -/
  a : Int
  /-- `RSP_B`, 32 bits unsigned -/
  b : BitVec 32
  /-- `RSP_X`, or absent -/
  x : Option RealValue
  deriving DecidableEq, Repr

/-- The pin registers (R34); `DATA` is always an input and has none. -/
structure Pins where
  /-- `CS_MODE` -/
  csMode : PinMode
  /-- `CLK_MODE` -/
  clkMode : PinMode
  /-- `CS_LVL` -/
  csLvl : Level
  /-- `CLK_LVL` -/
  clkLvl : Level
  deriving DecidableEq, Repr

/-- The transaction sequencer (R35 to R37). -/
structure Sequencer where
  /-- `PHASE` (R36) -/
  phase : Phase
  /-- `BITIDX`, 5 bits, 0 to 18 (R35) -/
  bitIdx : BitVec 5
  /-- `SHIFT`, 18 bits (R35) -/
  shift : Frame
  /-- the settle timer: the least time the running phase must last before the next pin change (R37) -/
  settle : Nat
  deriving DecidableEq, Repr

/-- What the agents outside the engine present at its ports (R6, R45, R46, R103, R240): the model's own fields. -/
structure Inputs where
  /-- the words the host holds at the command port, the one on `cmd_word` first; `cmd_valid` is that there is one (R45) -/
  cmd : List CmdWord
  /-- the levels the sensor drives at the next samples of `DATA`; a sample past the list is a free value (R103) -/
  data : List Level
  /-- the next readings of `ts_in`; a reading past the list is a free value (R46) -/
  ts : List Nat
  /-- the reset input during the next step (R240, R241): not asserted; asserted at once (0); or asserted when the command
  the step accepts has come `k` pin events far (`k + 1`) -/
  rst : Option Nat
  /-- how many draws the engine has made; the index of its free values -/
  draws : Nat
  deriving DecidableEq, Repr

/-- The state of the block (R20), its parameters (R38), its inputs and the pin trace of the last command (R102). -/
structure State where
  cfg : Config
  tracker : Tracker
  control : Control
  response : Response
  pins : Pins
  seq : Sequencer
  inputs : Inputs
  trace : List PinEvent
  deriving DecidableEq, Repr

/-- Why the machine stops. There is no way: every command ends in a next state, a fault of the spec being the entry into
`FAULTED` (R206), which is a next state too. -/
inductive Fault
  deriving DecidableEq, Repr

/-- Why a command has no meaning. -/
inductive Refusal where
  /-- `exec` raises it for a row of the opcode table whose meaning is not written; safe. No arm does. -/
  | notModelled (mnemonic : String)
  deriving DecidableEq, Repr

/-- The reset values of R42 for a block with the parameters `c`; the model's own fields (the settle timer's expired
value, no input scripted, no event recorded) are log entries 3, 6 and 8. -/
def State.resetWith (c : Config) : State where
  cfg := c
  tracker := { prevRaw := 0, turns := 0, zeroOfs := 0, prevAngle := 0, prevTs := 0, natDir := 0 }
  control := { lstate := .uninit, busy := false, faultCode := .noFault, faultCmd := 0, lastWrap := .noWrap }
  response := { valid := false, op := 0, a := 0, b := 0, x := none }
  pins := { csMode := .input, clkMode := .input, csLvl := ~~~ c.csActive, clkLvl := 1 }
  seq := { phase := .idle, bitIdx := 0, shift := 0, settle := 0 }
  inputs := { cmd := [], data := [], ts := [], rst := none, draws := 0 }
  trace := []

/-- The block right after reset, its parameters at the defaults of R9 (R42, R240). -/
def State.reset : State := State.resetWith Config.default

end Sys2Proof.Machine
end

