-- ==== Sys2Proof/Machine/Operands.lean ====
section
/-! DEFINITION. Where a command's inputs come from: the direction sign, the draws from the sensor and the timebase, the
fields of a frame, and the integer quantities of the tracker with their ranges. -/
namespace Sys2Proof.Machine

open Sys2Proof

/-- `dir`, the sign `NAT_DIR` stands for (R15). -/
def dirSign (natDir : BitVec 1) : Int := if natDir = 0 then 1 else -1

/-- `v` fits `bits` signed bits. -/
abbrev FitsSigned (bits : Nat) (v : Int) : Prop := -((2 ^ (bits - 1) : Nat) : Int) ≤ v ∧ v ≤ ((2 ^ (bits - 1) : Nat) : Int) - 1

/-- `ANGLE_BITS` (R10). -/
def angleBits (c : Config) : Nat := c.turnBits + 13

/-- `DCOUNT_BITS` (R10). -/
def dcountBits (c : Config) : Nat := c.turnBits + 14

/-- The level of the `i`-th next sample of `DATA`: scripted, or a free value (R103). -/
def dataDraw (inp : Inputs) (i : Nat) : Level := (inp.data.drop i).headD (Config.dataLevel (inp.draws + i))

/-- The inputs after one sample of `DATA`. -/
def takeData (inp : Inputs) : Inputs := { inp with data := inp.data.tail, draws := inp.draws + 1 }

/-- `Now()`: the next reading of the `TS_BITS`-bit timestamp input, scripted or a free value (R13, R46). -/
def nowDraw (s : State) : Nat := s.inputs.ts.headD (Config.timestamp s.inputs.draws) % 2 ^ s.cfg.tsBits

/-- The state after one reading of the timestamp. -/
def takeNow (s : State) : State :=
  { s with inputs := { s.inputs with ts := s.inputs.ts.tail, draws := s.inputs.draws + 1 } }

/-- `Extract(frame) = frame[17:6]` (R104). -/
def extract (f : Frame) : Raw := f.extractLsb' 6 12

/-- The shift of one sample into the frame: `{SHIFT[16:0], b}` (R101). -/
def shiftIn (f : Frame) (b : Level) : Frame := f.extractLsb' 0 17 ++ b

/-- `delta = raw - PREV_RAW`, with no modular reduction (R136). -/
def sampleDelta (raw prevRaw : Raw) : Int := (raw.toNat : Int) - prevRaw.toNat

/-- The angle in counts, `dir * (t * CPR + (raw - ZERO_OFS))`, the offset not normalized (R139, R140). -/
def angleCounts (natDir : BitVec 1) (turns zeroOfs : Int) (raw : Raw) : Int :=
  dirSign natDir * (turns * cpr + ((raw.toNat : Int) - zeroOfs))

/-- `e = (now - PREV_TS) mod 2^TS_BITS` (R148). -/
def elapsedUs (c : Config) (now prevTs : Nat) : Nat := (((now : Int) - prevTs) % ((2 ^ c.tsBits : Nat) : Int)).toNat

/-- `eff_us`: the interval, or the fallback when it is 0 or more than half a second (R147, R148). -/
def effectiveUs (e : Nat) : Nat := if e = 0 ∨ velMaxUs < e then velFallbackUs else e

/-- `ABS_RET_SIGN × v` (R176). -/
def applyRetSign (g : RetSign) (v : Int) : Int :=
  match g with
  | .plus => v
  | .minus => -v

/-- `zext(frame)` in `RSP_A` (R107); where the frame does not fit `DCOUNT_BITS` (only when `TURN_BITS < 5`) the spec
states no result and the register holds a free value of its width (log entry 5). -/
def frameResult (c : Config) (draws : Nat) (f : Frame) : Int :=
  if f.toNat < 2 ^ (c.turnBits + 13) then (f.toNat : Int)
  else Int.bmod (Config.wideFrame draws) (2 ^ (c.turnBits + 14))

/-- The value of a real-valued result under a choice of `RadConv` and `VelConv` (R9, R141, R149). -/
def RealValue.eval {α : Type} (radConv : Int → α) (velConv : Int → Nat → α) : RealValue → α
  | .rad c => radConv c
  | .radPerSec d us => velConv d us

/-- The ideal value of a real-valued result, as a multiple of `π`: `c / 2048`, and `d × 10^6 / (2048 × us)` (R141, R149). -/
def RealValue.idealPi : RealValue → Rat :=
  RealValue.eval (fun c => (c : Rat) / 2048) (fun d us => (d : Rat) * 1000000 / (2048 * (us : Rat)))

end Sys2Proof.Machine
end

