-- ==== Sys2Proof/Machine/Flags.lean ====
section
/-! DEFINITION. The status fields: the wrap decision, the encodings of the control registers, and the `STATUS` word. -/
namespace Sys2Proof.Machine

open Sys2Proof

/-- The wrap decision: an event when `5 * |delta| > 4 * CPR`, against the sign of `delta` (R137, R138). -/
def wrapOf (delta : Int) : Wrap :=
  if 4 * cpr < 5 * |delta| then (if 0 < delta then .decremented else .incremented) else .noWrap

/-- What a wrap decision adds to `TURNS` (R138). -/
def wrapTurns : Wrap → Int
  | .noWrap => 0
  | .incremented => 1
  | .decremented => -1

/-- The 2-bit code of `LAST_WRAP` (R31). -/
def wrapCode : Wrap → BitVec 2
  | .noWrap => 0b00
  | .incremented => 0b01
  | .decremented => 0b11

/-- The 2-bit code of `LSTATE` (R27). -/
def lstateCode : LState → BitVec 2
  | .uninit => 0b00
  | .ready => 0b01
  | .closed => 0b10
  | .faulted => 0b11

/-- The 4-bit code of `FAULT_CODE` (R200). -/
def faultCodeBits : FaultCode → BitVec 4
  | .noFault => 0
  | .illegalCmd => 1
  | .notReady => 2
  | .turnOverflow => 3

/-- `STATUS`, 16 bits, assembled from the registers; bits 15:11 read as 0 (R32). -/
def statusWord (s : State) : BitVec 16 :=
  0#5 ++ BitVec.ofBool s.response.valid ++ s.tracker.natDir ++ wrapCode s.control.lastWrap ++
    faultCodeBits s.control.faultCode ++ lstateCode s.control.lstate ++ BitVec.ofBool s.control.busy

end Sys2Proof.Machine
end

