-- ==== Sys2Proof/Machine/Ops.lean ====
section
/-! DEFINITION. The operations the commands share: the pins, the transaction sequencer, the command port, the response,
taking a fault and the return from one (reset), the legality check, and the angle update. -/
namespace Sys2Proof.Machine

open Sys2Proof

/-! ### Pins -/

/-- Add an event to the pin trace (R102). -/
def record (e : PinEvent) (s : State) : State := { s with trace := s.trace ++ [e] }

/-- `Pin(CS) <- l` (R13, R34). -/
def driveCs (l : Level) (s : State) : State := record (.cs l) { s with pins := { s.pins with csLvl := l } }

/-- `Pin(CLK) <- l` (R13, R34). -/
def driveClk (l : Level) (s : State) : State := record (.clk l) { s with pins := { s.pins with clkLvl := l } }

/-- `PinMode(CS) <- m` (R13, R34). -/
def setCsMode (m : PinMode) (s : State) : State := record (.csMode m) { s with pins := { s.pins with csMode := m } }

/-- `PinMode(CLK) <- m` (R13, R34). -/
def setClkMode (m : PinMode) (s : State) : State := record (.clkMode m) { s with pins := { s.pins with clkMode := m } }

/-- The level a pin drives, or high impedance (R34). -/
def pinOutput (m : PinMode) (l : Level) : Option Level :=
  match m with
  | .output => some l
  | .input => none

/-- The level chip-select takes at the end of a transaction (R101, R111). -/
def csEndLevel (c : Config) : Level :=
  match c.csEndMode with
  | .release => ~~~ c.csActive
  | .reassert => c.csActive

/-! ### The transaction sequencer -/

/-- `Wait(t)`: load the settle timer (R13, R37). -/
def wait (t : Nat) (s : State) : State := record (.dwell t) { s with seq := { s.seq with settle := t } }

/-- `phase <- p`, the dwell of the phase before it having passed (R36, R37). -/
def setPhase (p : Phase) (s : State) : State := { s with seq := { s.seq with phase := p, settle := 0 } }

/-- `b <- Sample(DATA); SHIFT <- {SHIFT[16:0], b}; BITIDX <- BITIDX + 1` (R101, R103). -/
def sampleBit (s : State) : State :=
  let b := dataDraw s.inputs 0
  record (.sample b)
    { s with
      inputs := takeData s.inputs
      seq := { s.seq with shift := shiftIn s.seq.shift b, bitIdx := s.seq.bitIdx + 1 } }

/-- What one phase of the transaction does (R101). -/
def enterPhase (p : Phase) (s : State) : State :=
  match p with
  | .csSetup =>
    wait s.cfg.tSettle (driveCs s.cfg.csActive
      (setPhase .csSetup { s with seq := { s.seq with shift := 0, bitIdx := 0 } }))
  | .clkSetup => wait s.cfg.tSettle (driveClk 0 (setPhase .clkSetup s))
  | .bitHi => sampleBit (wait s.cfg.tSettle (driveClk 1 (setPhase .bitHi s)))
  | .bitLo => wait s.cfg.tSettle (driveClk 0 (setPhase .bitLo s))
  | .endTxn => driveCs (csEndLevel s.cfg) (driveClk 1 (setPhase .endTxn s))
  | .idle => setPhase .idle s

/-- The head of the loop `while BITIDX < 18` (R101). -/
def loopHead (q : Sequencer) : Phase := if q.bitIdx < 18 then .bitHi else .endTxn

/-- The phase that follows, in the fixed sequence with one counted loop (R36, R101). -/
def nextPhase (q : Sequencer) : Phase :=
  match q.phase with
  | .idle => .csSetup
  | .csSetup => .clkSetup
  | .clkSetup => loopHead q
  | .bitHi => .bitLo
  | .bitLo => loopHead q
  | .endTxn => .idle

/-- One tick of the sequencer. -/
def tick (s : State) : State := enterPhase (nextPhase s.seq) s

/-- `n` ticks of the sequencer. -/
def ticks : Nat → State → State
  | 0, s => s
  | n + 1, s => ticks n (tick s)

/-- The ticks of one transaction after its first phase: `CLK_SETUP`, 18 times `BIT_HI` and `BIT_LO`, `END`, `IDLE` (R101). -/
def transactionTicks : Nat := 39

/-- `SsiTransaction()`; the frame it returns is left in `SHIFT` (R101). -/
def ssiTransaction (s : State) : State := ticks transactionTicks (enterPhase .csSetup s)

/-- A transaction of a command, at least `T_CS_IDLE` after the transaction or the pin configuration before it (R258). -/
def transact (s : State) : State := ssiTransaction (wait s.cfg.tCsIdle s)

/-- The states inside `transact`: before it (0), and `n` phases into its sequence (R66). -/
def transactPart (n : Nat) (s : State) : State :=
  match n with
  | 0 => s
  | k + 1 => ticks (min k transactionTicks) (enterPhase .csSetup (wait s.cfg.tCsIdle s))

/-! ### The command port, the response and the faults -/

/-- `cmd_ready` (R45). -/
def cmdReady (s : State) : Bool := !s.control.busy && s.control.lstate != .faulted

/-- The word the port accepts in this state, if any: `cmd_valid = 1` and `cmd_ready = 1` (R45). -/
def acceptable (s : State) : Option CmdWord := if cmdReady s then s.inputs.cmd.head? else none

/-- Accepting a command: the word leaves the port, `BUSY` is set, `RSP_VALID` cleared, and a new pin trace begins
(R28, R33, R71). -/
def accept (s : State) : State :=
  { s with
    control := { s.control with busy := true }
    response := { s.response with valid := false }
    inputs := { s.inputs with cmd := s.inputs.cmd.tail }
    trace := [] }

/-- `respond(A, B, X)` for the command `i`; it ends the command, so `BUSY` is cleared (R28, R33). -/
def respond (i : Instr) (a : Int) (b : BitVec 32) (x : Option RealValue) (s : State) : State :=
  { s with
    response := { valid := true, op := opcodeOf i, a := a, b := b, x := x }
    control := { s.control with busy := false } }

/-- Fault entry, `raise Fault(code)` for the accepted word: the three registers it saves in, `BUSY`, and nothing else
(R206). -/
def raiseFault (code : FaultCode) (word : CmdWord) (s : State) : State :=
  { s with control := { s.control with faultCode := code, faultCmd := word, lstate := .faulted, busy := false } }

/-- Reset, the one return from a fault: every register at its reset value, the pins released (R208, R240, R241). The
parameters stay, the host's words and the draws still to come stay at the ports, and `rst` is released (log entry 6). -/
def applyReset (s : State) : State :=
  { State.resetWith s.cfg with
    inputs := { s.inputs with rst := none }
    trace := s.trace ++ [.csMode .input, .clkMode .input] }

/-! ### Legality and the angle update -/

/-- The states in which a command is legal (R202). -/
def legalIn : Instr → LState → Bool
  | .init, l => l != .faulted
  | .getAngle, l => l == .ready
  | .getVelocity, l => l == .ready
  | .calRelZero, l => l == .ready
  | .calAbsZero, l => l == .ready
  | .hasAbsZero, l => l != .faulted
  | .needsAbsSearch, l => l != .faulted
  | .close, l => l != .faulted
  | .setDir _, l => l != .faulted
  | .readFrame, l => l == .ready

/-- Run the body of the command `i` where it is legal; raise `NOT_READY` where it is not (R202, R205). In `FAULTED` no
command is accepted and neither fault can be raised, so nothing changes (R207). -/
def runLegal (i : Instr) (body : State → State) (s : State) : Host.Outcome State Fault Refusal :=
  if s.control.lstate = .faulted then .next s
  else if legalIn i s.control.lstate then .next (body s)
  else .next (raiseFault .notReady (encode i) s)

/-- The values of one angle update (R139). -/
structure AngleStep where
  /-- the position sampled -/
  raw : Raw
  /-- the wrap decision -/
  wrap : Wrap
  /-- the turn count after it -/
  turns : Int
  /-- the angle in counts -/
  angle : Int
  deriving DecidableEq, Repr

/-- The values of the angle update for a frame (R136 to R140). -/
def angleStep (k : Tracker) (f : Frame) : AngleStep :=
  let raw := extract f
  let w := wrapOf (sampleDelta raw k.prevRaw)
  let t := k.turns + wrapTurns w
  { raw := raw, wrap := w, turns := t, angle := angleCounts k.natDir t k.zeroOfs raw }

/-- The registers an angle update writes (R139). -/
def writeAngle (u : AngleStep) (s : State) : State :=
  { s with
    tracker := { s.tracker with turns := u.turns, prevRaw := u.raw }
    control := { s.control with lastWrap := u.wrap } }

/-- `AngleUpdate()` and the rest of the command `i`, which gets the values of the update; an update that would move
`TURNS` out of its range raises `TURN_OVERFLOW` and writes nothing (R134, R139, R203). -/
def withAngleUpdate (i : Instr) (rest : AngleStep → State → State) (s : State) : State :=
  let s1 := transact s
  let u := angleStep s1.tracker s1.seq.shift
  if FitsSigned s1.cfg.turnBits u.turns then rest u (writeAngle u s1)
  else raiseFault .turnOverflow (encode i) s1

end Sys2Proof.Machine
end

