-- ==== Sys2Proof/Machine/Calibration.lean ====
section
/-! DEFINITION. Calibration, the capability flags and the direction (spec/42_calibration.md): `CAL_REL_ZERO`,
`CAL_ABS_ZERO`, `HAS_ABS_ZERO`, `NEEDS_ABS_SEARCH`, `SET_DIR`. -/
namespace Sys2Proof.Machine

open Sys2Proof

/-- Declare a new zero: the offset, and no turn counted (R172, R175). -/
def rezero (ofs : Int) (s : State) : State := { s with tracker := { s.tracker with zeroOfs := ofs, turns := 0 } }

/-- The end of `CAL_REL_ZERO` (R172): the offset is `dir * raw` of the sample just read. -/
def answerRelZero (u : AngleStep) (s : State) : State :=
  respond .calRelZero (-u.angle) (u.raw.setWidth 32) (some (.rad (-u.angle)))
    (rezero (dirSign s.tracker.natDir * u.raw.toNat) s)

/-- `CAL_REL_ZERO` (R172). -/
def execCalRelZero (s : State) : Host.Outcome State Fault Refusal :=
  runLegal .calRelZero (withAngleUpdate .calRelZero answerRelZero) s

/-- The body of `CAL_ABS_ZERO` (R175, R176). -/
def calAbsZeroBody (s : State) : State :=
  let r := applyRetSign s.cfg.absRetSign s.tracker.zeroOfs
  respond .calAbsZero r 0 (some (.rad r)) (rezero 0 s)

/-- `CAL_ABS_ZERO` (R175). -/
def execCalAbsZero (s : State) : Host.Outcome State Fault Refusal := runLegal .calAbsZero calAbsZeroBody s

/-- `HAS_ABS_ZERO` (R178). -/
def execHasAbsZero (s : State) : Host.Outcome State Fault Refusal :=
  runLegal .hasAbsZero (respond .hasAbsZero hasAbs 0 none) s

/-- `NEEDS_ABS_SEARCH` (R180). -/
def execNeedsAbsSearch (s : State) : Host.Outcome State Fault Refusal :=
  runLegal .needsAbsSearch (respond .needsAbsSearch needsSearch 0 none) s

/-- The body of `SET_DIR a` (R184): `ARG` is written to `NAT_DIR` unchanged (R82). -/
def setDirBody (a : BitVec 1) (s : State) : State :=
  respond (.setDir a) (dirSign a) 0 none { s with tracker := { s.tracker with natDir := a } }

/-- `SET_DIR a` (R184). -/
def execSetDir (a : BitVec 1) (s : State) : Host.Outcome State Fault Refusal := runLegal (.setDir a) (setDirBody a) s

end Sys2Proof.Machine
end

