-- ==== Sys2Proof/Machine/Tracker.lean ====
section
/-! DEFINITION. The commands of the angle tracker (spec/41_tracker.md): `INIT`, `GET_ANGLE`, `GET_VELOCITY`. -/
namespace Sys2Proof.Machine

open Sys2Proof

/-- The line configuration of `INIT`: `CS` an output deasserted, `CLK` an output high (R142, R143). -/
def configureLines (s : State) : State :=
  setClkMode .output (driveClk 1 (setCsMode .output (driveCs (~~~ s.cfg.csActive) s)))

/-- The register writes of `INIT` after its transaction, for the seed sample `raw` and the time `now` (R142). -/
def seedTracker (raw : Raw) (now : Nat) (s : State) : State :=
  { s with
    tracker := { s.tracker with prevRaw := raw, turns := 0, zeroOfs := 0, prevAngle := 0, prevTs := now }
    control := { s.control with lastWrap := .noWrap, lstate := .ready } }

/-- The body of `INIT` (R142): the time is sampled after the transaction. -/
def initBody (s : State) : State :=
  let s1 := transact (configureLines s)
  let raw := extract s1.seq.shift
  respond .init raw.toNat 0 none (seedTracker raw (nowDraw s1) (takeNow s1))

/-- `INIT` (R142). -/
def execInit (s : State) : Host.Outcome State Fault Refusal := runLegal .init initBody s

/-- `GET_ANGLE` (R145). -/
def execGetAngle (s : State) : Host.Outcome State Fault Refusal :=
  runLegal .getAngle
    (withAngleUpdate .getAngle fun u => respond .getAngle u.angle (u.raw.setWidth 32) (some (.rad u.angle))) s

/-- The end of `GET_VELOCITY` (R150, steps 4 to 6): the difference to `PREV_ANGLE`, then the new velocity baseline. -/
def answerVelocity (now eff : Nat) (u : AngleStep) (s : State) : State :=
  let d := u.angle - s.tracker.prevAngle
  respond .getVelocity d (BitVec.ofNat 32 eff) (some (.radPerSec d eff))
    { s with tracker := { s.tracker with prevAngle := u.angle, prevTs := now } }

/-- The body of `GET_VELOCITY` (R150): the time is sampled before the transaction (R148). -/
def getVelocityBody (s : State) : State :=
  let now := nowDraw s
  let eff := effectiveUs (elapsedUs s.cfg now s.tracker.prevTs)
  withAngleUpdate .getVelocity (answerVelocity now eff) (takeNow s)

/-- `GET_VELOCITY` (R150). -/
def execGetVelocity (s : State) : Host.Outcome State Fault Refusal := runLegal .getVelocity getVelocityBody s

end Sys2Proof.Machine
end

