-- ==== Sys2Proof/Machine/Transport.lean ====
section
/-! DEFINITION. The commands of the protocol transport (spec/40_transport.md): `READ_FRAME`, `CLOSE`. -/
namespace Sys2Proof.Machine

open Sys2Proof

/-- The body of `READ_FRAME` (R107): the frame and its position field, and no effect on the tracker. -/
def readFrameBody (s : State) : State :=
  let s1 := transact s
  respond .readFrame (frameResult s1.cfg s1.inputs.draws s1.seq.shift) ((extract s1.seq.shift).setWidth 32) none s1

/-- `READ_FRAME` (R107). -/
def execReadFrame (s : State) : Host.Outcome State Fault Refusal := runLegal .readFrame readFrameBody s

/-- The body of `CLOSE` (R110): both lines to high impedance, their level registers kept. -/
def closeBody (s : State) : State :=
  let s1 := setClkMode .input (setCsMode .input s)
  respond .close 0 0 none { s1 with control := { s1.control with lstate := .closed } }

/-- `CLOSE` (R110). -/
def execClose (s : State) : Host.Outcome State Fault Refusal := runLegal .close closeBody s

end Sys2Proof.Machine
end

