-- ==== Sys2Proof/Machine/Dispatch.lean ====
section
/-! DEFINITION. One arm per command: its meaning, from the state in which the command port has accepted it. -/
namespace Sys2Proof.Machine

open Sys2Proof

def exec (i : Instr) (s : State) : Host.Outcome State Fault Refusal :=
  match i with
  | .init => Sys2Proof.Machine.execInit s
  | .getAngle => Sys2Proof.Machine.execGetAngle s
  | .getVelocity => Sys2Proof.Machine.execGetVelocity s
  | .calRelZero => Sys2Proof.Machine.execCalRelZero s
  | .calAbsZero => Sys2Proof.Machine.execCalAbsZero s
  | .hasAbsZero => Sys2Proof.Machine.execHasAbsZero s
  | .needsAbsSearch => Sys2Proof.Machine.execNeedsAbsSearch s
  | .close => Sys2Proof.Machine.execClose s
  | .setDir a => Sys2Proof.Machine.execSetDir a s
  | .readFrame => Sys2Proof.Machine.execReadFrame s

end Sys2Proof.Machine
end

