-- ==== Sys2Proof/Machine/Abandon.lean ====
section
/-! DEFINITION. A command cut short by reset (spec/20_memory.md R63, spec/70_reset_and_hazards.md R241): what it has done
at its pins and drawn from its inputs when the reset comes. What it would have written to a register is never kept. -/
namespace Sys2Proof.Machine

open Sys2Proof

/-- How many of the events are samples of `DATA`. -/
def samplesIn (es : List PinEvent) : Nat :=
  (es.filter fun e => match e with
    | .sample _ => true
    | .cs _ => false
    | .clk _ => false
    | .csMode _ => false
    | .clkMode _ => false
    | .dwell _ => false).length

/-- The inputs once a command has made the samples in `es`; `GET_VELOCITY` has read the time before them (R148). -/
def drawnDuring (i : Instr) (es : List PinEvent) (s : State) : Inputs :=
  let q := match i with
    | .getVelocity => if legalIn i s.control.lstate then (takeNow s).inputs else s.inputs
    | .init => s.inputs
    | .getAngle => s.inputs
    | .calRelZero => s.inputs
    | .calAbsZero => s.inputs
    | .hasAbsZero => s.inputs
    | .needsAbsSearch => s.inputs
    | .close => s.inputs
    | .setDir _ => s.inputs
    | .readFrame => s.inputs
  { q with data := q.data.drop (samplesIn es), draws := q.draws + samplesIn es }

/-- The command `i` abandoned after its first `n` pin events, a dwell counting as one when it is over: its events so far
and its draws, and no register written (R241). The pin registers are left to the reset that follows at once. -/
def abandonAfter (n : Nat) (i : Instr) (s : State) : State :=
  match exec i s with
  | .next t =>
    let es := (t.trace.drop s.trace.length).take n
    { s with trace := s.trace ++ es, inputs := drawnDuring i es s }
  | .fault _ => s
  | .refused _ => s

/-- The state in which the reset of a step comes: at once for 0 or where the port accepts no word, else `k` pin events
into the command it accepts. -/
def beforeReset (n : Nat) (s : State) : State :=
  match n, acceptable s with
  | 0, _ => s
  | _ + 1, none => s
  | k + 1, some w =>
    match decode w with
    | .error _ => accept s
    | .ok i => abandonAfter k i (accept s)

end Sys2Proof.Machine
end

