-- ==== Sys2Proof/Machine/Step.lean ====
section
/-! DEFINITION. One step of the block: a reset, or one command taken from the command port and run to its end (spec/20_memory.md
R66, R68), or, with nothing to accept, a wait. -/
namespace Sys2Proof.Machine

open Sys2Proof

/-- One step. The reset input comes before everything (R205, R241). An accepted word that is illegal raises `ILLEGAL_CMD`
before anything else (R84, R201); a legal one is executed. With `cmd_ready = 0` or no word at the port the block waits
and nothing changes (R44, R45, R207). -/
def step (s : State) : Host.Outcome State Fault Refusal :=
  match s.inputs.rst with
  | some n => .next (applyReset (beforeReset n s))
  | none =>
    match acceptable s with
    | none => .next s
    | some w =>
      match decode w with
      | .error _ => .next (raiseFault .illegalCmd w (accept s))
      | .ok i => exec i (accept s)

/-- The state with the command word `w` (its low `nbits` bits) as the next word at the command port, before those the
host already holds there, and no reset asserted (log entry 7). -/
def State.withFetchWord (s : State) (nbits w : Nat) : State :=
  { s with inputs := { s.inputs with cmd := BitVec.ofNat 8 (w % 2 ^ nbits) :: s.inputs.cmd, rst := none } }

end Sys2Proof.Machine
end

