-- ==== Sys2Proof/Machine/Observe.lean ====
section
/-! DEFINITION. What the outside world sees of the block: the observation port and the pins (spec/10_state.md R34, R40). -/
namespace Sys2Proof.Machine

open Sys2Proof

/-- The registers the observation port shows (R40). -/
structure Observation where
  status : BitVec 16
  faultCmd : CmdWord
  response : Response
  prevRaw : Raw
  turns : Int
  zeroOfs : Int
  prevAngle : Int
  prevTs : Nat
  deriving DecidableEq, Repr

/-- The observation port (R40): read-only and without a side effect. -/
def observe (s : State) : Observation where
  status := statusWord s
  faultCmd := s.control.faultCmd
  response := s.response
  prevRaw := s.tracker.prevRaw
  turns := s.tracker.turns
  zeroOfs := s.tracker.zeroOfs
  prevAngle := s.tracker.prevAngle
  prevTs := s.tracker.prevTs

/-- What the `CS` pin drives (R34). -/
def csPin (s : State) : Option Level := pinOutput s.pins.csMode s.pins.csLvl

/-- What the `CLK` pin drives (R34). -/
def clkPin (s : State) : Option Level := pinOutput s.pins.clkMode s.pins.clkLvl

/-- An event is one of the pin trace of R102: a level driven or a sample. -/
def isPinEvent : PinEvent → Bool
  | .cs _ => true
  | .clk _ => true
  | .sample _ => true
  | .csMode _ => false
  | .clkMode _ => false
  | .dwell _ => false

/-- The pin trace of R102. -/
def pinTrace (es : List PinEvent) : List PinEvent := es.filter isPinEvent

/-- The least time the dwell of an event lasts (R252). -/
def eventDwell : PinEvent → Nat
  | .dwell t => t
  | .cs _ => 0
  | .clk _ => 0
  | .sample _ => 0
  | .csMode _ => 0
  | .clkMode _ => 0

/-- The least time a list of events lasts (R109, R260): the sum of its dwells, with no upper bound (R252). -/
def leastDuration (es : List PinEvent) : Nat := (es.map eventDwell).sum

end Sys2Proof.Machine
end

