-- ==== Sys2Proof/Safety.lean ====
section
/-! DEFINITION. What counts as a safe state and a clean end, in the terms the claims use: the invariant that holds between
any two steps (spec/10_state.md R21 to R37, R43; spec/40_transport.md R108, R111; spec/60_exceptions.md R206, R207). -/
namespace Sys2Proof.Machine

open Sys2Proof

/-- Both lines are outputs at their levels between transactions (R111). -/
abbrev Pins.driven (p : Pins) (c : Config) : Prop :=
  p.csMode = .output ∧ p.clkMode = .output ∧ p.csLvl = csEndLevel c ∧ p.clkLvl = 1

/-- Both lines are high impedance (R110). -/
abbrev Pins.released (p : Pins) : Prop := p.csMode = .input ∧ p.clkMode = .input

/-- Every register is in its range (R10, R22 to R26, R33, R35). -/
structure InRange (s : State) : Prop where
  /-- the parameters are ones the spec admits (R9) -/
  cfgOk : s.cfg.wf
  /-- `TURNS` fits `TURN_BITS` signed bits (R22) -/
  turnsFit : FitsSigned s.cfg.turnBits s.tracker.turns
  /-- `ZERO_OFS` is in `[-4095, 4095]` (R23) -/
  zeroOfsRange : -4095 ≤ s.tracker.zeroOfs ∧ s.tracker.zeroOfs ≤ 4095
  /-- `PREV_ANGLE` fits `ANGLE_BITS` signed bits (R24, R153) -/
  prevAngleFit : FitsSigned (angleBits s.cfg) s.tracker.prevAngle
  /-- `PREV_TS` fits `TS_BITS` bits (R26) -/
  prevTsFit : s.tracker.prevTs < 2 ^ s.cfg.tsBits
  /-- `RSP_A` fits `DCOUNT_BITS` signed bits (R33, R153) -/
  rspAFit : FitsSigned (dcountBits s.cfg) s.response.a
  /-- `BITIDX` is in 0 to 18 (R35) -/
  bitIdxRange : s.seq.bitIdx ≤ 18

/-- The invariant between two steps. -/
structure Inv (s : State) : Prop where
  inRange : InRange s
  /-- no command is running: `BUSY = 0`, `PHASE = IDLE`, the settle timer expired (R28, R36, R37) -/
  quiet : s.control.busy = false ∧ s.seq.phase = .idle ∧ s.seq.settle = 0
  /-- in `READY` both lines are driven at their idle levels (R108, R111) -/
  readyDriven : s.control.lstate = .ready → s.pins.driven s.cfg
  /-- before `INIT` and after `CLOSE` both lines are high impedance (R108, R110) -/
  unreadyReleased : s.control.lstate = .uninit ∨ s.control.lstate = .closed → s.pins.released
  /-- after a fault the lines are at their idle levels or high impedance (R206) -/
  faultedLines : s.control.lstate = .faulted → s.pins.driven s.cfg ∨ s.pins.released
  /-- a fault code is recorded exactly in `FAULTED` (R29, R206) -/
  faultRecorded : s.control.faultCode ≠ .noFault ↔ s.control.lstate = .faulted
  /-- no response stands in `FAULTED` (R206) -/
  noFaultResponse : s.control.lstate = .faulted → s.response.valid = false

/-- The frame the sensor's next 18 levels make, read as a number, the first level first (R61). -/
def drawnFrame (q : Inputs) : Nat := (List.range 18).foldl (fun v i => 2 * v + (dataDraw q i).toNat) 0

/-- The position the sensor's next levels make: the 12 most significant bits of the frame (R104). -/
def drawnRaw (q : Inputs) : Nat := drawnFrame q / 64

/-- The pin events of one transaction, with its dwells (R101, R102). -/
def transactionEvents (c : Config) (q : Inputs) : List PinEvent :=
  [.cs c.csActive, .dwell c.tSettle, .clk 0, .dwell c.tSettle] ++
    (List.range 18).flatMap
      (fun i => [.clk 1, .dwell c.tSettle, .sample (dataDraw q i), .clk 0, .dwell c.tSettle]) ++
    [.clk 1, .cs (csEndLevel c)]

/-- The inputs after the draws of one transaction. -/
def afterTransaction (q : Inputs) : Inputs := { q with data := q.data.drop 18, draws := q.draws + 18 }

/-- A run ends cleanly in a state that is not `FAULTED` and in which no command is running; `FAULTED` is never a clean end
(R207). -/
abbrev endsCleanly (s : State) : Prop := s.control.lstate ≠ .faulted ∧ s.control.busy = false

end Sys2Proof.Machine
end

