-- ==== Sys2Proof/Certificates/Slice0/Obligations.lean ====
section
/-! DEFINITION. The statements about the AS5045 SSI engine, from the numbered rules of spec/. The words they are written in
stand first, in `Sys2Proof.Claims`: what a rule says an effect is, in numbers of the spec, not in the meanings' own helpers. -/
namespace Sys2Proof.Claims

open Sys2Proof Sys2Proof.Machine

/-- A pending command word `w` is accepted by the next step: no reset, `BUSY = 0`, not `FAULTED`, `w` at the port (R45). -/
abbrev Accepts (s : State) (w : CmdWord) (rest : List CmdWord) : Prop :=
  s.inputs.rst = none ∧ s.control.busy = false ∧ s.control.lstate ≠ .faulted ∧ s.inputs.cmd = w :: rest

/-- The state in which a command runs: `BUSY` set, `RSP_VALID` cleared, the word gone from the port, a new trace. -/
abbrev accepted (s : State) (rest : List CmdWord) : State :=
  { s with
    control := { s.control with busy := true }
    response := { s.response with valid := false }
    inputs := { s.inputs with cmd := rest }
    trace := [] }

/-- Fault entry (R206): three registers, `BUSY`, and nothing else. -/
abbrev faulted (code : FaultCode) (word : CmdWord) (s : State) : State :=
  { s with
    control := { lstate := .faulted, busy := false, faultCode := code, faultCmd := word, lastWrap := s.control.lastWrap } }

/-- A completed response (R33), with `BUSY` cleared (R28). -/
abbrev answered (op : OpCode) (a : Int) (b : BitVec 32) (x : Option RealValue) (s : State) : State :=
  { s with
    response := { valid := true, op := op, a := a, b := b, x := x }
    control := { s.control with busy := false } }

/-- The level `CS` ends a transaction at (R101). -/
abbrev endLevel (c : Config) : Level := if c.csEndMode = .release then ~~~ c.csActive else c.csActive

/-- What one transaction leaves, the frame being the next 18 levels of `DATA` (R101), `T_CS_IDLE` before it (R258). -/
abbrev afterFrame (s : State) : State :=
  { s with
    pins := { s.pins with csLvl := endLevel s.cfg, clkLvl := 1 }
    seq := { phase := .idle, bitIdx := 18, shift := BitVec.ofNat 18 (drawnFrame s.inputs), settle := 0 }
    inputs := afterTransaction s.inputs
    trace := s.trace ++ [.dwell s.cfg.tCsIdle] ++ transactionEvents s.cfg s.inputs }

/-- `delta`, from the position drawn next (R136). -/
abbrev drawnDelta (s : State) : Int := (drawnRaw s.inputs : Int) - s.tracker.prevRaw.toNat

/-- The turns a delta counts: one against its sign from 3277 counts on (R137, R138). -/
abbrev turnsOf (delta : Int) : Int := if 3277 ≤ delta then -1 else if delta ≤ -3277 then 1 else 0

/-- The `LAST_WRAP` value for a delta (R31, R139). -/
abbrev wrapFieldOf (delta : Int) : Wrap :=
  if 3277 ≤ delta then .decremented else if delta ≤ -3277 then .incremented else .noWrap

/-- `t`, the turn count an angle update moves to (R139). -/
abbrev newTurns (s : State) : Int := s.tracker.turns + turnsOf (drawnDelta s)

/-- `t` is in the range of `TURNS` (R134). -/
abbrev TurnsInRange (s : State) : Prop :=
  -(2 ^ (s.cfg.turnBits - 1) : Int) ≤ newTurns s ∧ newTurns s ≤ 2 ^ (s.cfg.turnBits - 1) - 1

/-- `dir` (R15). -/
abbrev dirOf (natDir : BitVec 1) : Int := if natDir = 0 then 1 else -1

/-- The angle of an angle update, in counts (R139). -/
abbrev newAngle (s : State) : Int :=
  dirOf s.tracker.natDir * (newTurns s * 4096 + ((drawnRaw s.inputs : Int) - s.tracker.zeroOfs))

/-- The state after a transaction and the register writes of an angle update (R139). -/
abbrev afterUpdate (s : State) : State :=
  { afterFrame s with
    tracker := { s.tracker with prevRaw := BitVec.ofNat 12 (drawnRaw s.inputs), turns := newTurns s }
    control := { s.control with lastWrap := wrapFieldOf (drawnDelta s) } }

/-- `e` (R148). -/
abbrev elapsed (s : State) : Int := ((nowDraw s : Int) - s.tracker.prevTs) % 2 ^ s.cfg.tsBits

/-- `eff_us` (R147, R148). -/
abbrev effective (s : State) : Int := if elapsed s = 0 ∨ 500000 < elapsed s then 1000 else elapsed s

/-- The lines as `INIT` configures them, with its pin events (R142, R143). -/
abbrev linesConfigured (s : State) : State :=
  { s with
    pins := { csMode := .output, clkMode := .output, csLvl := ~~~ s.cfg.csActive, clkLvl := 1 }
    trace := s.trace ++ [.cs (~~~ s.cfg.csActive), .csMode .output, .clk 1, .clkMode .output] }

/-- Two states agree on every register and parameter of the spec and on the pin trace of R102. Left out are the model's own
fields: the settle timer's value, the ports' scripts and the number of draws, and the mode changes and dwells of the trace
(log entries 3, 6, 8); `Obligations.DrawsPerCommand` and `Obligations.TransactionPinTrace` are about those. -/
structure SameRegisters (s t : State) : Prop where
  cfg : s.cfg = t.cfg
  tracker : s.tracker = t.tracker
  control : s.control = t.control
  response : s.response = t.response
  pins : s.pins = t.pins
  phase : s.seq.phase = t.seq.phase
  bitIdx : s.seq.bitIdx = t.seq.bitIdx
  shift : s.seq.shift = t.seq.shift
  events : pinTrace s.trace = pinTrace t.trace

/-- The command `i` completes from `s` in a next state with the registers of `t`. -/
abbrev Yields (i : Instr) (s t : State) : Prop := ∃ u, exec i s = .next u ∧ SameRegisters u t

/-- The commands that need `READY` (R202). -/
abbrev needsReady (i : Instr) : Prop :=
  i = .getAngle ∨ i = .getVelocity ∨ i = .calRelZero ∨ i = .calAbsZero ∨ i = .readFrame

/-- The command `i` is legal in the lifecycle state of `s` (R202). -/
abbrev Legal (i : Instr) (s : State) : Prop :=
  s.control.lstate ≠ .faulted ∧ (needsReady i → s.control.lstate = .ready)

/-- A command that answers an angle or a difference of angles. -/
abbrev readsAngle (i : Instr) : Prop := i = .getAngle ∨ i = .getVelocity

/-- Run commands one after another, each from the state the one before it left (R68), and list the integer answers of the
`GET_ANGLE` and `GET_VELOCITY` commands that complete. -/
def runAnswers : List Instr → State → Option (List Int)
  | [], _ => some []
  | i :: is, s =>
    match exec i s with
    | .next t =>
      (runAnswers is t).map (fun l => if readsAngle i ∧ t.control.lstate ≠ .faulted then t.response.a :: l else l)
    | .fault _ => none
    | .refused _ => none

/-- Two states that differ only in the direction, with no zero offset and what the direction multiplies negated (R152: the
rule's case is `PREV_ANGLE = 0`, its own negation). -/
structure Mirrored (s t : State) : Prop where
  cfg : t.cfg = s.cfg
  dirs : s.tracker.natDir = 0 ∧ t.tracker.natDir = 1
  noOffset : s.tracker.zeroOfs = 0 ∧ t.tracker.zeroOfs = 0
  prevRaw : t.tracker.prevRaw = s.tracker.prevRaw
  turns : t.tracker.turns = s.tracker.turns
  prevTs : t.tracker.prevTs = s.tracker.prevTs
  prevAngle : t.tracker.prevAngle = -s.tracker.prevAngle
  control : t.control = s.control
  inputs : t.inputs = s.inputs

end Sys2Proof.Claims

open Sys2Proof Sys2Proof.Machine Sys2Proof.Claims

/-! ### Decoding -/

/-- The eleven legal words of R83, each written out from its fields `RSV`, `ARG`, `OP` (R81). -/
def Obligations.LegalWordsDecodeAsWritten : Prop :=
  decode 0b00000001 = .ok .init ∧ decode 0b00000010 = .ok .getAngle ∧ decode 0b00000011 = .ok .getVelocity ∧
  decode 0b00000100 = .ok .calRelZero ∧ decode 0b00000101 = .ok .calAbsZero ∧ decode 0b00000110 = .ok .hasAbsZero ∧
  decode 0b00000111 = .ok .needsAbsSearch ∧ decode 0b00001000 = .ok .close ∧ decode 0b00001001 = .ok (.setDir 0) ∧
  decode 0b00011001 = .ok (.setDir 1) ∧ decode 0b00001010 = .ok .readFrame

/-- R85, R88: decoding the word of any command gives it back, and each command has exactly one word. -/
def Obligations.DecodeEncodeAgree : Prop :=
  ∀ i : Instr, decode (encode i) = .ok i ∧ ∀ w : CmdWord, decode w = .ok i → w = encode i

/-- R84: which words are illegal, that eleven are legal, and that an accepted illegal word raises `ILLEGAL_CMD` with nothing
else changed. -/
def Obligations.IllegalWordsRaiseIllegalCmd : Prop :=
  (∀ w : CmdWord, (∀ i, decode w ≠ .ok i) ↔
    (w.extractLsb' 5 3 ≠ 0 ∨ w.extractLsb' 0 4 = 0 ∨ 11 ≤ (w.extractLsb' 0 4).toNat ∨
      (w.extractLsb' 4 1 = 1 ∧ w.extractLsb' 0 4 ≠ 9))) ∧
  (∀ w : CmdWord, (∃ i, decode w = .ok i) ↔ (1 ≤ w.toNat ∧ w.toNat ≤ 10) ∨ w.toNat = 0x19) ∧
  (∀ (s : State) (w : CmdWord) (rest : List CmdWord), Accepts s w rest → (∀ i, decode w ≠ .ok i) →
    step s = .next (faulted .illegalCmd w (accepted s rest)))

/-! ### The step -/

/-- R45, R28, R33: the step of a state whose pending word decodes to `i` is `exec i` of the state in which the port has
accepted it. -/
def Obligations.StepRunsDecodedCommand : Prop :=
  ∀ (s : State) (w : CmdWord) (rest : List CmdWord) (i : Instr), Accepts s w rest → decode w = .ok i →
    step s = exec i (accepted s rest)

/-- The word placed by `withFetchWord` is the one the next step runs, in every state whose port is ready. -/
def Obligations.FetchWordRunsNext : Prop :=
  ∀ (s : State) (nbits w : Nat) (i : Instr), s.control.busy = false → s.control.lstate ≠ .faulted →
    decodeTableWord nbits w = some i →
    step (s.withFetchWord nbits w) = exec i (accepted { s with inputs := { s.inputs with rst := none } } s.inputs.cmd)

/-- A host that finds `cmd_ready = 0`, or that holds no word, waits: the step changes nothing (R44, R45). -/
def Obligations.UnreadyPortWaits : Prop :=
  ∀ s : State, s.inputs.rst = none →
    (s.control.busy = true ∨ s.control.lstate = .faulted ∨ s.inputs.cmd = []) → step s = .next s

/-- No command and no sensor value, frame or timestamp stops the block: every step has a next state. -/
def Obligations.EveryStepHasANextState : Prop := ∀ s : State, ∃ t, step s = .next t

/-- R240, R242: reset gives every register the value of R42, from any state and at any point of a command in progress, and
the block is ready for a command. -/
def Obligations.ResetInputResetsEveryRegister : Prop :=
  ∀ (s : State) (n : Nat), s.inputs.rst = some n → ∃ t, step s = .next t ∧
    t.cfg = s.cfg ∧
    t.tracker = { prevRaw := 0, turns := 0, zeroOfs := 0, prevAngle := 0, prevTs := 0, natDir := 0 } ∧
    t.control = { lstate := .uninit, busy := false, faultCode := .noFault, faultCmd := 0, lastWrap := .noWrap } ∧
    t.response = { valid := false, op := 0, a := 0, b := 0, x := none } ∧
    t.pins = { csMode := .input, clkMode := .input, csLvl := ~~~ s.cfg.csActive, clkLvl := 1 } ∧
    t.seq.phase = .idle ∧ t.seq.bitIdx = 0 ∧ t.seq.shift = 0 ∧ cmdReady t = true

/-- R241: a reset during a command cuts its events short wherever it is, and the pins then go to high impedance. How the
reset input says when it comes is the model's (log entry 6). -/
def Obligations.ResetCutsCommandShort : Prop :=
  ∀ (s : State) (w : CmdWord) (rest : List CmdWord) (i : Instr) (k : Nat),
    s.inputs.rst = some (k + 1) → s.control.busy = false → s.control.lstate ≠ .faulted → s.inputs.cmd = w :: rest →
    decode w = .ok i →
    ∃ t u, step s = .next t ∧ exec i (accepted s rest) = .next u ∧
      t.trace = u.trace.take k ++ [.csMode .input, .clkMode .input] ∧ csPin t = none ∧ clkPin t = none

/-- R42: the state right after reset, register by register. -/
def Obligations.ResetValues : Prop :=
  let s := State.reset
  s.tracker = { prevRaw := 0, turns := 0, zeroOfs := 0, prevAngle := 0, prevTs := 0, natDir := 0 } ∧
  s.control = { lstate := .uninit, busy := false, faultCode := .noFault, faultCmd := 0, lastWrap := .noWrap } ∧
  s.response = { valid := false, op := 0, a := 0, b := 0, x := none } ∧
  s.pins = { csMode := .input, clkMode := .input, csLvl := ~~~ s.cfg.csActive, clkLvl := 1 } ∧
  s.seq.phase = .idle ∧ s.seq.bitIdx = 0 ∧ s.seq.shift = 0

/-- R208: nothing executes in `FAULTED`, and reset, which clears the fault registers, is the one way out of it. -/
def Obligations.FaultedUntilReset : Prop :=
  ∀ s : State, s.control.lstate = .faulted →
    (s.inputs.rst = none → step s = .next s) ∧
    (∀ n, s.inputs.rst = some n → ∃ t, step s = .next t ∧
      t.control.faultCode = .noFault ∧ t.control.faultCmd = 0 ∧ t.control.lstate = .uninit)

/-! ### The transaction -/

/-- R61: the frame is shifted in most significant bit first. -/
def Obligations.FrameShiftsInMsbFirst : Prop :=
  ∀ (s : State) (i : Nat), i < 18 →
    (ssiTransaction s).seq.shift.getLsbD (17 - i) = (dataDraw s.inputs i).getLsbD 0

/-- R101: the whole effect of a transaction on the registers and the pins. -/
def Obligations.TransactionEffect : Prop :=
  ∀ s : State, SameRegisters (ssiTransaction s)
    { s with
      pins := { s.pins with csLvl := endLevel s.cfg, clkLvl := 1 }
      seq := { s.seq with phase := .idle, bitIdx := 18, shift := BitVec.ofNat 18 (drawnFrame s.inputs) }
      trace := s.trace ++ [.cs s.cfg.csActive, .clk 0] ++
        (List.range 18).flatMap (fun i => [.clk 1, .sample (dataDraw s.inputs i), .clk 0]) ++
        [.clk 1, .cs (endLevel s.cfg)] }

/-- R102: the pin trace of a transaction: its 58 events in order, its edges, and a dwell of `T_SETTLE` between any two
successive pin changes up to the final `CLK:=1`, none between a sample and the falling edge or before the `CS` end event. -/
def Obligations.TransactionPinTrace : Prop :=
  ∀ s : State, ∃ es : List PinEvent, (ssiTransaction s).trace = s.trace ++ es ∧
    pinTrace es = [.cs s.cfg.csActive, .clk 0] ++
      (List.range 18).flatMap (fun i => [.clk 1, .sample (dataDraw s.inputs i), .clk 0]) ++
      [.clk 1, .cs (endLevel s.cfg)] ∧
    (pinTrace es).length = 58 ∧ es.count (.clk 1) = 19 ∧ es.count (.clk 0) = 19 ∧
    es = [.cs s.cfg.csActive, .dwell s.cfg.tSettle, .clk 0, .dwell s.cfg.tSettle] ++
      (List.range 18).flatMap (fun i =>
        [.clk 1, .dwell s.cfg.tSettle, .sample (dataDraw s.inputs i), .clk 0, .dwell s.cfg.tSettle]) ++
      [.clk 1, .cs (endLevel s.cfg)]

/-- R109: a transaction lasts at least `38 × T_SETTLE`, and no dwell beyond those is asked. -/
def Obligations.TransactionLeastDuration : Prop :=
  ∀ s : State, leastDuration (ssiTransaction s).trace = leastDuration s.trace + 38 * s.cfg.tSettle

/-- While a command's transaction runs, however many ticks of it have passed, the observation port shows the registers
from before, and a trace that the whole transaction goes on from (R40, R66, R241). -/
def Obligations.RunningTransactionShowsOldRegisters : Prop :=
  ∀ (s : State) (k : Nat), k ≤ 40 →
    observe (transactPart k s) = observe s ∧ ∃ rest, (transact s).trace = (transactPart k s).trace ++ rest

/-- R137, R138: the wrap decision, its threshold in exact integers and in whole counts, and its direction. -/
def Obligations.WrapDecision : Prop :=
  ∀ delta : Int,
    (wrapOf delta ≠ .noWrap ↔ 4 * 4096 < 5 * |delta|) ∧ (wrapOf delta ≠ .noWrap ↔ 3277 ≤ |delta|) ∧
    (wrapOf delta ≠ .noWrap → 0 < delta → wrapTurns (wrapOf delta) = -1) ∧
    (wrapOf delta ≠ .noWrap → ¬ 0 < delta → wrapTurns (wrapOf delta) = 1) ∧
    (wrapOf delta = .noWrap → wrapTurns (wrapOf delta) = 0)

/-- R104: extraction is the quotient by 64 and lies in `[0, CPR)`. -/
def Obligations.ExtractionIsTopTwelveBits : Prop :=
  ∀ f : Frame, (extract f).toNat = f.toNat / 64 ∧ (extract f).toNat < 4096 ∧
    ∀ i : Nat, i < 12 → (extract f).getLsbD i = f.getLsbD (i + 6)

/-! ### The commands -/

/-- R142: `INIT`, whole, in every state that accepts it. -/
def Obligations.InitSeedsTracker : Prop :=
  encode .init = 0x01 ∧ ∀ s : State, s.control.lstate ≠ .faulted →
    Yields .init s
      (let r := afterFrame (linesConfigured s)
       answered 0x1 (drawnRaw s.inputs) 0 none
        { takeNow r with
          tracker :=
            { prevRaw := BitVec.ofNat 12 (drawnRaw s.inputs), turns := 0, zeroOfs := 0, prevAngle := 0,
              prevTs := nowDraw r, natDir := s.tracker.natDir }
          control := { s.control with lastWrap := .noWrap, lstate := .ready } })

/-- R145: `GET_ANGLE`: the angle update and its answer, or `TURN_OVERFLOW`, or `NOT_READY`. -/
def Obligations.GetAngleUnwraps : Prop :=
  encode .getAngle = 0x02 ∧
  (∀ s : State, s.control.lstate = .ready → TurnsInRange s →
    Yields .getAngle s
      (answered 0x2 (newAngle s) (BitVec.ofNat 32 (drawnRaw s.inputs)) (some (.rad (newAngle s))) (afterUpdate s))) ∧
  (∀ s : State, s.control.lstate = .ready → ¬ TurnsInRange s →
    Yields .getAngle s (faulted .turnOverflow 0x02 (afterFrame s))) ∧
  (∀ s : State, s.control.lstate = .uninit ∨ s.control.lstate = .closed →
    Yields .getAngle s (faulted .notReady 0x02 s))

/-- R150: `GET_VELOCITY`: the time first, then the angle update, the difference, and the new baseline. -/
def Obligations.GetVelocityDifferentiates : Prop :=
  encode .getVelocity = 0x03 ∧
  (∀ s : State, s.control.lstate = .ready → TurnsInRange (takeNow s) →
    Yields .getVelocity s
      (let angle := newAngle (takeNow s)
       let d := angle - s.tracker.prevAngle
       let u := afterUpdate (takeNow s)
       answered 0x3 d (BitVec.ofInt 32 (effective s)) (some (.radPerSec d (effective s).toNat))
        { u with tracker := { u.tracker with prevAngle := angle, prevTs := nowDraw s } })) ∧
  (∀ s : State, s.control.lstate = .ready → ¬ TurnsInRange (takeNow s) →
    Yields .getVelocity s (faulted .turnOverflow 0x03 (afterFrame (takeNow s)))) ∧
  (∀ s : State, s.control.lstate = .uninit ∨ s.control.lstate = .closed →
    Yields .getVelocity s (faulted .notReady 0x03 s))

/-- R172: `CAL_REL_ZERO`: the embedded angle update, then the new zero; a turn overflow writes nothing. -/
def Obligations.CalRelZeroRezeroes : Prop :=
  encode .calRelZero = 0x04 ∧
  (∀ s : State, s.control.lstate = .ready → TurnsInRange s →
    Yields .calRelZero s
      (answered 0x4 (-newAngle s) (BitVec.ofNat 32 (drawnRaw s.inputs)) (some (.rad (-newAngle s)))
        { afterUpdate s with
          tracker :=
            { s.tracker with
              prevRaw := BitVec.ofNat 12 (drawnRaw s.inputs)
              zeroOfs := dirOf s.tracker.natDir * drawnRaw s.inputs
              turns := 0 } })) ∧
  (∀ s : State, s.control.lstate = .ready → ¬ TurnsInRange s →
    Yields .calRelZero s (faulted .turnOverflow 0x04 (afterFrame s))) ∧
  (∀ s : State, s.control.lstate = .uninit ∨ s.control.lstate = .closed →
    Yields .calRelZero s (faulted .notReady 0x04 s))

/-- R175, R176: `CAL_ABS_ZERO`: no transaction, the old offset with `ABS_RET_SIGN` applied, `dir` not. -/
def Obligations.CalAbsZeroRestoresZero : Prop :=
  encode .calAbsZero = 0x05 ∧
  (∀ s : State, s.control.lstate = .ready →
    exec .calAbsZero s = .next
      (let r := if s.cfg.absRetSign = .plus then s.tracker.zeroOfs else -s.tracker.zeroOfs
       answered 0x5 r 0 (some (.rad r)) { s with tracker := { s.tracker with zeroOfs := 0, turns := 0 } })) ∧
  (∀ s : State, s.control.lstate = .uninit ∨ s.control.lstate = .closed →
    exec .calAbsZero s = .next (faulted .notReady 0x05 s))

/-- R178, R180, R182: the two capability queries answer their constants and read no register. -/
def Obligations.CapabilityFlagsAreConstant : Prop :=
  encode .hasAbsZero = 0x06 ∧ encode .needsAbsSearch = 0x07 ∧
  ∀ s : State, s.control.lstate ≠ .faulted →
    exec .hasAbsZero s = .next (answered 0x6 1 0 none s) ∧ exec .needsAbsSearch s = .next (answered 0x7 0 0 none s)

/-- R110: `CLOSE` releases the lines, in every state that accepts it. -/
def Obligations.CloseReleasesLines : Prop :=
  encode .close = 0x08 ∧ ∀ s : State, s.control.lstate ≠ .faulted →
    Yields .close s
      (answered 0x8 0 0 none
        { s with
          pins := { s.pins with csMode := .input, clkMode := .input }
          control := { s.control with lstate := .closed } })

/-- R184, R185: `SET_DIR` writes its operand to `NAT_DIR`, answers the sign, and rescales nothing. -/
def Obligations.SetDirWritesDirection : Prop :=
  encode (.setDir 0) = 0x09 ∧ encode (.setDir 1) = 0x19 ∧
  ∀ (a : BitVec 1) (s : State), s.control.lstate ≠ .faulted →
    exec (.setDir a) s = .next
      (answered 0x9 (if a = 0 then 1 else -1) 0 none { s with tracker := { s.tracker with natDir := a } })

/-- R107: `READ_FRAME` answers the frame and its position and leaves the tracker alone. Premise: the frame fits `RSP_A`, as
every frame does from `TURN_BITS = 5` on. -/
def Obligations.ReadFrameAnswersFrame : Prop :=
  encode .readFrame = 0x0A ∧
  (∀ s : State, s.control.lstate = .ready → drawnFrame s.inputs < 2 ^ (s.cfg.turnBits + 13) →
    Yields .readFrame s
      (answered 0xA (drawnFrame s.inputs) (BitVec.ofNat 32 (drawnRaw s.inputs)) none (afterFrame s))) ∧
  (∀ s : State, 5 ≤ s.cfg.turnBits → drawnFrame s.inputs < 2 ^ (s.cfg.turnBits + 13)) ∧
  (∀ s : State, s.control.lstate = .uninit ∨ s.control.lstate = .closed →
    Yields .readFrame s (faulted .notReady 0x0A s))

/-- The model's choice (log entry 5): where the frame does not fit `RSP_A`, `READ_FRAME` completes all the same, and
`RSP_A` holds some value of its width. -/
def Obligations.ReadFrameCompletesOnWideFrames : Prop :=
  ∀ s : State, s.control.lstate = .ready → ∃ a : Int,
    -(2 ^ (s.cfg.turnBits + 13) : Int) ≤ a ∧ a < 2 ^ (s.cfg.turnBits + 13) ∧
    Yields .readFrame s (answered 0xA a (BitVec.ofNat 32 (drawnRaw s.inputs)) none (afterFrame s))

/-- R202: which commands a lifecycle state allows, each of the others raising `NOT_READY`; in `FAULTED` none is accepted. -/
def Obligations.LegalityByLifecycleState : Prop :=
  (∀ (i : Instr) (s : State), s.control.lstate = .uninit ∨ s.control.lstate = .closed → needsReady i →
    exec i s = .next (faulted .notReady (encode i) s)) ∧
  (∀ (i : Instr) (s t : State), s.control.lstate = .ready ∨ (s.control.lstate ≠ .faulted ∧ ¬ needsReady i) →
    s.control.faultCode = .noFault → exec i s = .next t → t.control.faultCode ≠ .notReady) ∧
  (∀ s : State, s.control.lstate = .faulted → s.inputs.rst = none → step s = .next s)

/-- R206: faults are precise: a faulting command leaves the tracker, `LAST_WRAP`, the response registers and the pin modes
as they were, and records its word. -/
def Obligations.FaultsArePrecise : Prop :=
  ∀ (i : Instr) (s t : State), s.control.lstate ≠ .faulted → exec i s = .next t → t.control.lstate = .faulted →
    t.tracker = s.tracker ∧ t.response = s.response ∧ t.control.lastWrap = s.control.lastWrap ∧
    t.pins.csMode = s.pins.csMode ∧ t.pins.clkMode = s.pins.clkMode ∧ t.control.busy = false ∧
    t.control.faultCmd = encode i ∧
    ((t.control.faultCode = .notReady ∧ t = faulted .notReady (encode i) s) ∨ t.control.faultCode = .turnOverflow)

/-! ### Whole-machine rules -/

/-- The invariant holds at reset (R42). Its clause that the settle timer is expired rests on the model's choice: R42 lists no
value for that timer and the model takes 0 (log entry 8). -/
def Obligations.ResetSatisfiesInv : Prop := Inv State.reset

/-- Every step keeps the invariant: register ranges, the idle sequencer, the lines of each lifecycle state, the fault
registers. Two of its clauses are the model's own: that the settle timer is expired between steps is its choice of time (log
entry 8), and that the lines may stay driven after a fault is its reading of R206 against R108 (log entry 14). -/
def Obligations.EveryStepKeepsInv : Prop := ∀ s t : State, Inv s → step s = .next t → Inv t

/-- R43 as C2 reads it: in a command that does not fault, an angle update leaves `TURNS` within the threshold and moves it by
one turn past it, `INIT` and the two calibrations set it to 0 from any value, and no other command writes it; a command that
ends in `FAULTED` leaves it as it was (R206). -/
def Obligations.TurnsMoveByOneTurn : Prop :=
  ∀ (i : Instr) (s t : State), exec i s = .next t →
    let moved := t.tracker.turns - s.tracker.turns
    let delta := |(t.tracker.prevRaw.toNat : Int) - s.tracker.prevRaw.toNat|
    let update := i = .getAngle ∨ i = .getVelocity
    let zeroing := i = .init ∨ i = .calRelZero ∨ i = .calAbsZero
    (t.control.lstate = .faulted → moved = 0) ∧
    (t.control.lstate ≠ .faulted →
      (update → (moved = 0 ∧ 5 * delta ≤ 4 * 4096) ∨ ((moved = 1 ∨ moved = -1) ∧ 4 * 4096 < 5 * delta)) ∧
      (zeroing → t.tracker.turns = 0) ∧
      (¬ update → ¬ zeroing → moved = 0))

/-- R25: `NAT_DIR` is written only by `SET_DIR`. -/
def Obligations.OnlySetDirWritesDirection : Prop :=
  ∀ (i : Instr) (s t : State), exec i s = .next t → t.tracker.natDir ≠ s.tracker.natDir →
    i = .setDir t.tracker.natDir

/-- R146, R170, R255: `PREV_ANGLE` and `PREV_TS` are written only by `GET_VELOCITY` and `INIT`. -/
def Obligations.OnlyInitAndVelocityWriteBaseline : Prop :=
  ∀ (i : Instr) (s t : State), exec i s = .next t → i ≠ .init → i ≠ .getVelocity →
    t.tracker.prevAngle = s.tracker.prevAngle ∧ t.tracker.prevTs = s.tracker.prevTs

/-- R38: the parameters are fixed for the life of the block. -/
def Obligations.NoStepChangesParameters : Prop := ∀ s t : State, step s = .next t → t.cfg = s.cfg

/-- R27: the lifecycle: `INIT` leads to `READY`, `CLOSE` to `CLOSED`, a fault to `FAULTED`; no other command moves it. -/
def Obligations.LifecycleTransitions : Prop :=
  ∀ (i : Instr) (s t : State), s.control.lstate ≠ .faulted → exec i s = .next t →
    (i = .init → t.control.lstate = .ready) ∧ (i = .close → t.control.lstate = .closed) ∧
    (i ≠ .init → i ≠ .close → t.control.lstate = s.control.lstate ∨
      (t.control.lstate = .faulted ∧ t.control.faultCode ≠ .noFault))

/-- R105: the block never reads the six status bits of the frame: two sensors that drive the same first twelve levels give
the same tracker, control, pin and response registers, but for `READ_FRAME`'s whole frame in `RSP_A`. The bits do reach the
hidden register `SHIFT` (R35, log entry 13) and the samples of the pin trace, which are not compared. -/
def Obligations.StatusBitsNeverReachResults : Prop :=
  ∀ (i : Instr) (s s' t' : State) (levels : List Level),
    18 ≤ s.inputs.data.length → 18 ≤ levels.length → levels.take 12 = s.inputs.data.take 12 →
    exec i s = .next s' → exec i { s with inputs := { s.inputs with data := levels } } = .next t' →
    t'.tracker = s'.tracker ∧ t'.control = s'.control ∧ t'.pins = s'.pins ∧ t'.response.valid = s'.response.valid ∧
    t'.response.op = s'.response.op ∧ t'.response.b = s'.response.b ∧ t'.response.x = s'.response.x ∧
    (i ≠ .readFrame → t'.response.a = s'.response.a)

/-- R64: `INIT`, `GET_ANGLE`, `GET_VELOCITY`, `CAL_REL_ZERO` and `READ_FRAME` perform exactly one transaction, its 58 events
the last ones of the pin trace (before them only `INIT` drives the lines), in every state the command is legal in; the
other commands perform none. -/
def Obligations.TransactionsPerCommand : Prop :=
  ∀ (i : Instr) (s t : State), Legal i s → exec i s = .next t →
    if i = .init ∨ i = .getAngle ∨ i = .getVelocity ∨ i = .calRelZero ∨ i = .readFrame then
      ∃ es : List PinEvent, es.length = 58 ∧ (es.filter (fun e => e = .sample 0 ∨ e = .sample 1)).length = 18 ∧
        pinTrace t.trace = pinTrace s.trace ++ (if i = .init then [.cs (~~~ s.cfg.csActive), .clk 1] else []) ++ es
    else pinTrace t.trace = pinTrace s.trace

/-- The model's own reading of the draws (log entry 3): a transaction takes the next 18 levels, `INIT` and `GET_VELOCITY` one
reading of the timestamp, each in turn a draw; no command touches the host's words. -/
def Obligations.DrawsPerCommand : Prop :=
  ∀ (i : Instr) (s t : State), Legal i s → exec i s = .next t →
    let txn := i = .init ∨ i = .getAngle ∨ i = .getVelocity ∨ i = .calRelZero ∨ i = .readFrame
    let now := i = .init ∨ i = .getVelocity
    t.inputs.cmd = s.inputs.cmd ∧ t.inputs.rst = s.inputs.rst ∧
    (txn → t.inputs.data = s.inputs.data.drop 18) ∧ (¬ txn → t.inputs = s.inputs) ∧
    (now → t.inputs.ts = s.inputs.ts.tail ∧ t.inputs.draws = s.inputs.draws + 19) ∧
    (txn → ¬ now → t.inputs.ts = s.inputs.ts ∧ t.inputs.draws = s.inputs.draws + 18)

/-- R153: no angle and no difference overflows its register. -/
def Obligations.AnglesFitTheirRegisters : Prop :=
  ∀ s : State, InRange s → TurnsInRange s →
    FitsSigned (s.cfg.turnBits + 13) (newAngle s) ∧ FitsSigned (s.cfg.turnBits + 14) (newAngle s - s.tracker.prevAngle)

/-- R148, R151: the interval of a velocity lies in `[1, 500000]` µs, is the modular difference where that is a usable one,
and 1000 µs where it is not. -/
def Obligations.VelocityIntervalIsGuarded : Prop :=
  ∀ (c : Config) (now prevTs : Nat), now < 2 ^ c.tsBits → prevTs < 2 ^ c.tsBits →
    let e := elapsedUs c now prevTs
    (1 ≤ effectiveUs e ∧ effectiveUs e ≤ 500000) ∧ e < 2 ^ c.tsBits ∧ (prevTs + e) % 2 ^ c.tsBits = now ∧
    (now = prevTs → effectiveUs e = 1000) ∧ (prevTs ≤ now → e = now - prevTs) ∧
    (now < prevTs → e = 2 ^ c.tsBits - (prevTs - now)) ∧
    (500000 < e → effectiveUs e = 1000) ∧ (0 < e → e ≤ 500000 → effectiveUs e = e)

/-- R173: a `GET_ANGLE` that reads the sample of the `CAL_REL_ZERO` just before it answers 0 for `dir = +1` and `-2r` for
`dir = -1`. -/
def Obligations.RelativeZeroRoundTrip : Prop :=
  ∀ s t u : State, s.control.lstate = .ready → exec .calRelZero s = .next t → t.control.lstate = .ready →
    exec .getAngle t = .next u → drawnRaw t.inputs = drawnRaw s.inputs →
    drawnDelta t = 0 ∧ u.tracker.turns = 0 ∧ u.control.lastWrap = .noWrap ∧ u.response.valid = true ∧
    u.response.a = if s.tracker.natDir = 0 then 0 else -2 * (drawnRaw s.inputs : Int)

/-- R152: two runs of the same commands over the same draws that differ only in the direction, from a zero offset and with no
`CAL_REL_ZERO` between (nor a `SET_DIR`, which would end the difference): every angle and every velocity difference of one
is the exact negation of the other's. -/
def Obligations.DirectionInvertsEveryAnswer : Prop :=
  ∀ (is : List Instr) (s t : State), (∀ i ∈ is, i ≠ .calRelZero ∧ ∀ a, i ≠ .setDir a) → Mirrored s t →
    ∃ l : List Int, runAnswers is s = some l ∧ runAnswers is t = some (l.map (fun v => -v))

/-- R254: an angle update accounts for a true motion of `m` counts, from every starting position, exactly when `5|m| < CPR`. -/
def Obligations.SamplingLimitIsOneFifthTurn : Prop :=
  ∀ m : Int, |m| < 4096 →
    ((∀ p q : Raw, (q.toNat : Int) = (p.toNat + m) % 4096 →
      wrapTurns (wrapOf (sampleDelta q p)) * 4096 + sampleDelta q p = m) ↔ 5 * |m| < 4096) ∧
    (5 * |m| < 4096 ↔ |m| ≤ 819)

/-- R32: `STATUS`, field by field. -/
def Obligations.StatusFields : Prop :=
  ∀ s : State, let w := statusWord s
    w.getLsbD 0 = s.control.busy ∧
    w.extractLsb' 1 2 = (match s.control.lstate with
      | .uninit => 0b00#2 | .ready => 0b01#2 | .closed => 0b10#2 | .faulted => 0b11#2) ∧
    w.extractLsb' 3 4 = (match s.control.faultCode with
      | .noFault => 0#4 | .illegalCmd => 1#4 | .notReady => 2#4 | .turnOverflow => 3#4) ∧
    w.extractLsb' 7 2 = (match s.control.lastWrap with
      | .noWrap => 0b00#2 | .incremented => 0b01#2 | .decremented => 0b11#2) ∧
    w.extractLsb' 9 1 = s.tracker.natDir ∧ w.getLsbD 10 = s.response.valid ∧ w.extractLsb' 11 5 = 0#5

/-- R141, R149: the ideal values of the real-valued results, `c × 2π / CPR` and `d × 2π × 10^6 / (CPR × eff_us)`. -/
def Obligations.IdealRealValues : Prop :=
  (∀ c : Int, ((RealValue.rad c).idealPi : ℝ) * Real.pi = (c : ℝ) * (2 * Real.pi) / 4096) ∧
  (∀ (d : Int) (us : Nat), 1 ≤ us →
    ((RealValue.radPerSec d us).idealPi : ℝ) * Real.pi = ((d : ℝ) * (2 * Real.pi) / 4096) / ((us : ℝ) / 1000000))
end

