-- ==== Sys2Proof/Laws/State.lean ====
section
/-! SUPPORT. What each shared operation does to each part of State, one lemma a part, each true by definition, so that no
proof unfolds an update. Compound operations (a transaction, the meanings) have their lemmas in the files beside this. -/
namespace Sys2Proof.Machine

open Sys2Proof

/-! ### `record` -/

@[simp] theorem record_cfg (e : PinEvent) (s : State) : (record e s).cfg = s.cfg := rfl
@[simp] theorem record_tracker (e : PinEvent) (s : State) : (record e s).tracker = s.tracker := rfl
@[simp] theorem record_control (e : PinEvent) (s : State) : (record e s).control = s.control := rfl
@[simp] theorem record_response (e : PinEvent) (s : State) : (record e s).response = s.response := rfl
@[simp] theorem record_pins (e : PinEvent) (s : State) : (record e s).pins = s.pins := rfl
@[simp] theorem record_seq (e : PinEvent) (s : State) : (record e s).seq = s.seq := rfl
@[simp] theorem record_inputs (e : PinEvent) (s : State) : (record e s).inputs = s.inputs := rfl
@[simp] theorem record_trace (e : PinEvent) (s : State) : (record e s).trace = s.trace ++ [e] := rfl

/-! ### `driveCs` -/

@[simp] theorem driveCs_cfg (l : Level) (s : State) : (driveCs l s).cfg = s.cfg := rfl
@[simp] theorem driveCs_tracker (l : Level) (s : State) : (driveCs l s).tracker = s.tracker := rfl
@[simp] theorem driveCs_control (l : Level) (s : State) : (driveCs l s).control = s.control := rfl
@[simp] theorem driveCs_response (l : Level) (s : State) : (driveCs l s).response = s.response := rfl
@[simp] theorem driveCs_pins (l : Level) (s : State) : (driveCs l s).pins = { s.pins with csLvl := l } := rfl
@[simp] theorem driveCs_seq (l : Level) (s : State) : (driveCs l s).seq = s.seq := rfl
@[simp] theorem driveCs_inputs (l : Level) (s : State) : (driveCs l s).inputs = s.inputs := rfl
@[simp] theorem driveCs_trace (l : Level) (s : State) : (driveCs l s).trace = s.trace ++ [.cs l] := rfl

/-! ### `driveClk` -/

@[simp] theorem driveClk_cfg (l : Level) (s : State) : (driveClk l s).cfg = s.cfg := rfl
@[simp] theorem driveClk_tracker (l : Level) (s : State) : (driveClk l s).tracker = s.tracker := rfl
@[simp] theorem driveClk_control (l : Level) (s : State) : (driveClk l s).control = s.control := rfl
@[simp] theorem driveClk_response (l : Level) (s : State) : (driveClk l s).response = s.response := rfl
@[simp] theorem driveClk_pins (l : Level) (s : State) : (driveClk l s).pins = { s.pins with clkLvl := l } := rfl
@[simp] theorem driveClk_seq (l : Level) (s : State) : (driveClk l s).seq = s.seq := rfl
@[simp] theorem driveClk_inputs (l : Level) (s : State) : (driveClk l s).inputs = s.inputs := rfl
@[simp] theorem driveClk_trace (l : Level) (s : State) : (driveClk l s).trace = s.trace ++ [.clk l] := rfl

/-! ### `setCsMode` -/

@[simp] theorem setCsMode_cfg (m : PinMode) (s : State) : (setCsMode m s).cfg = s.cfg := rfl
@[simp] theorem setCsMode_tracker (m : PinMode) (s : State) : (setCsMode m s).tracker = s.tracker := rfl
@[simp] theorem setCsMode_control (m : PinMode) (s : State) : (setCsMode m s).control = s.control := rfl
@[simp] theorem setCsMode_response (m : PinMode) (s : State) : (setCsMode m s).response = s.response := rfl
@[simp] theorem setCsMode_pins (m : PinMode) (s : State) : (setCsMode m s).pins = { s.pins with csMode := m } := rfl
@[simp] theorem setCsMode_seq (m : PinMode) (s : State) : (setCsMode m s).seq = s.seq := rfl
@[simp] theorem setCsMode_inputs (m : PinMode) (s : State) : (setCsMode m s).inputs = s.inputs := rfl
@[simp] theorem setCsMode_trace (m : PinMode) (s : State) : (setCsMode m s).trace = s.trace ++ [.csMode m] := rfl

/-! ### `setClkMode` -/

@[simp] theorem setClkMode_cfg (m : PinMode) (s : State) : (setClkMode m s).cfg = s.cfg := rfl
@[simp] theorem setClkMode_tracker (m : PinMode) (s : State) : (setClkMode m s).tracker = s.tracker := rfl
@[simp] theorem setClkMode_control (m : PinMode) (s : State) : (setClkMode m s).control = s.control := rfl
@[simp] theorem setClkMode_response (m : PinMode) (s : State) : (setClkMode m s).response = s.response := rfl
@[simp] theorem setClkMode_pins (m : PinMode) (s : State) : (setClkMode m s).pins = { s.pins with clkMode := m } := rfl
@[simp] theorem setClkMode_seq (m : PinMode) (s : State) : (setClkMode m s).seq = s.seq := rfl
@[simp] theorem setClkMode_inputs (m : PinMode) (s : State) : (setClkMode m s).inputs = s.inputs := rfl
@[simp] theorem setClkMode_trace (m : PinMode) (s : State) : (setClkMode m s).trace = s.trace ++ [.clkMode m] := rfl

/-! ### `wait` -/

@[simp] theorem wait_cfg (t : Nat) (s : State) : (wait t s).cfg = s.cfg := rfl
@[simp] theorem wait_tracker (t : Nat) (s : State) : (wait t s).tracker = s.tracker := rfl
@[simp] theorem wait_control (t : Nat) (s : State) : (wait t s).control = s.control := rfl
@[simp] theorem wait_response (t : Nat) (s : State) : (wait t s).response = s.response := rfl
@[simp] theorem wait_pins (t : Nat) (s : State) : (wait t s).pins = s.pins := rfl
@[simp] theorem wait_seq (t : Nat) (s : State) : (wait t s).seq = { s.seq with settle := t } := rfl
@[simp] theorem wait_inputs (t : Nat) (s : State) : (wait t s).inputs = s.inputs := rfl
@[simp] theorem wait_trace (t : Nat) (s : State) : (wait t s).trace = s.trace ++ [.dwell t] := rfl

/-! ### `setPhase` -/

@[simp] theorem setPhase_cfg (p : Phase) (s : State) : (setPhase p s).cfg = s.cfg := rfl
@[simp] theorem setPhase_tracker (p : Phase) (s : State) : (setPhase p s).tracker = s.tracker := rfl
@[simp] theorem setPhase_control (p : Phase) (s : State) : (setPhase p s).control = s.control := rfl
@[simp] theorem setPhase_response (p : Phase) (s : State) : (setPhase p s).response = s.response := rfl
@[simp] theorem setPhase_pins (p : Phase) (s : State) : (setPhase p s).pins = s.pins := rfl
@[simp] theorem setPhase_seq (p : Phase) (s : State) : (setPhase p s).seq = { s.seq with phase := p, settle := 0 } := rfl
@[simp] theorem setPhase_inputs (p : Phase) (s : State) : (setPhase p s).inputs = s.inputs := rfl
@[simp] theorem setPhase_trace (p : Phase) (s : State) : (setPhase p s).trace = s.trace := rfl

/-! ### `sampleBit` -/

@[simp] theorem sampleBit_cfg (s : State) : (sampleBit s).cfg = s.cfg := rfl
@[simp] theorem sampleBit_tracker (s : State) : (sampleBit s).tracker = s.tracker := rfl
@[simp] theorem sampleBit_control (s : State) : (sampleBit s).control = s.control := rfl
@[simp] theorem sampleBit_response (s : State) : (sampleBit s).response = s.response := rfl
@[simp] theorem sampleBit_pins (s : State) : (sampleBit s).pins = s.pins := rfl
@[simp] theorem sampleBit_seq (s : State) : (sampleBit s).seq = { s.seq with shift := shiftIn s.seq.shift (dataDraw s.inputs 0), bitIdx := s.seq.bitIdx + 1 } := rfl
@[simp] theorem sampleBit_inputs (s : State) : (sampleBit s).inputs = takeData s.inputs := rfl
@[simp] theorem sampleBit_trace (s : State) : (sampleBit s).trace = s.trace ++ [.sample (dataDraw s.inputs 0)] := rfl

/-! ### `takeNow` -/

@[simp] theorem takeNow_cfg (s : State) : (takeNow s).cfg = s.cfg := rfl
@[simp] theorem takeNow_tracker (s : State) : (takeNow s).tracker = s.tracker := rfl
@[simp] theorem takeNow_control (s : State) : (takeNow s).control = s.control := rfl
@[simp] theorem takeNow_response (s : State) : (takeNow s).response = s.response := rfl
@[simp] theorem takeNow_pins (s : State) : (takeNow s).pins = s.pins := rfl
@[simp] theorem takeNow_seq (s : State) : (takeNow s).seq = s.seq := rfl
@[simp] theorem takeNow_inputs (s : State) : (takeNow s).inputs = { s.inputs with ts := s.inputs.ts.tail, draws := s.inputs.draws + 1 } := rfl
@[simp] theorem takeNow_trace (s : State) : (takeNow s).trace = s.trace := rfl

/-! ### `accept` -/

@[simp] theorem accept_cfg (s : State) : (accept s).cfg = s.cfg := rfl
@[simp] theorem accept_tracker (s : State) : (accept s).tracker = s.tracker := rfl
@[simp] theorem accept_control (s : State) : (accept s).control = { s.control with busy := true } := rfl
@[simp] theorem accept_response (s : State) : (accept s).response = { s.response with valid := false } := rfl
@[simp] theorem accept_pins (s : State) : (accept s).pins = s.pins := rfl
@[simp] theorem accept_seq (s : State) : (accept s).seq = s.seq := rfl
@[simp] theorem accept_inputs (s : State) : (accept s).inputs = { s.inputs with cmd := s.inputs.cmd.tail } := rfl
@[simp] theorem accept_trace (s : State) : (accept s).trace = [] := rfl

/-! ### `respond` -/

@[simp] theorem respond_cfg (i : Instr) (a : Int) (b : BitVec 32) (x : Option RealValue) (s : State) : (respond i a b x s).cfg = s.cfg := rfl
@[simp] theorem respond_tracker (i : Instr) (a : Int) (b : BitVec 32) (x : Option RealValue) (s : State) : (respond i a b x s).tracker = s.tracker := rfl
@[simp] theorem respond_control (i : Instr) (a : Int) (b : BitVec 32) (x : Option RealValue) (s : State) : (respond i a b x s).control = { s.control with busy := false } := rfl
@[simp] theorem respond_response (i : Instr) (a : Int) (b : BitVec 32) (x : Option RealValue) (s : State) : (respond i a b x s).response = { valid := true, op := opcodeOf i, a := a, b := b, x := x } := rfl
@[simp] theorem respond_pins (i : Instr) (a : Int) (b : BitVec 32) (x : Option RealValue) (s : State) : (respond i a b x s).pins = s.pins := rfl
@[simp] theorem respond_seq (i : Instr) (a : Int) (b : BitVec 32) (x : Option RealValue) (s : State) : (respond i a b x s).seq = s.seq := rfl
@[simp] theorem respond_inputs (i : Instr) (a : Int) (b : BitVec 32) (x : Option RealValue) (s : State) : (respond i a b x s).inputs = s.inputs := rfl
@[simp] theorem respond_trace (i : Instr) (a : Int) (b : BitVec 32) (x : Option RealValue) (s : State) : (respond i a b x s).trace = s.trace := rfl

/-! ### `raiseFault` -/

@[simp] theorem raiseFault_cfg (c : FaultCode) (w : CmdWord) (s : State) : (raiseFault c w s).cfg = s.cfg := rfl
@[simp] theorem raiseFault_tracker (c : FaultCode) (w : CmdWord) (s : State) : (raiseFault c w s).tracker = s.tracker := rfl
@[simp] theorem raiseFault_control (c : FaultCode) (w : CmdWord) (s : State) : (raiseFault c w s).control = { s.control with faultCode := c, faultCmd := w, lstate := .faulted, busy := false } := rfl
@[simp] theorem raiseFault_response (c : FaultCode) (w : CmdWord) (s : State) : (raiseFault c w s).response = s.response := rfl
@[simp] theorem raiseFault_pins (c : FaultCode) (w : CmdWord) (s : State) : (raiseFault c w s).pins = s.pins := rfl
@[simp] theorem raiseFault_seq (c : FaultCode) (w : CmdWord) (s : State) : (raiseFault c w s).seq = s.seq := rfl
@[simp] theorem raiseFault_inputs (c : FaultCode) (w : CmdWord) (s : State) : (raiseFault c w s).inputs = s.inputs := rfl
@[simp] theorem raiseFault_trace (c : FaultCode) (w : CmdWord) (s : State) : (raiseFault c w s).trace = s.trace := rfl

/-! ### `writeAngle` -/

@[simp] theorem writeAngle_cfg (u : AngleStep) (s : State) : (writeAngle u s).cfg = s.cfg := rfl
@[simp] theorem writeAngle_tracker (u : AngleStep) (s : State) : (writeAngle u s).tracker = { s.tracker with turns := u.turns, prevRaw := u.raw } := rfl
@[simp] theorem writeAngle_control (u : AngleStep) (s : State) : (writeAngle u s).control = { s.control with lastWrap := u.wrap } := rfl
@[simp] theorem writeAngle_response (u : AngleStep) (s : State) : (writeAngle u s).response = s.response := rfl
@[simp] theorem writeAngle_pins (u : AngleStep) (s : State) : (writeAngle u s).pins = s.pins := rfl
@[simp] theorem writeAngle_seq (u : AngleStep) (s : State) : (writeAngle u s).seq = s.seq := rfl
@[simp] theorem writeAngle_inputs (u : AngleStep) (s : State) : (writeAngle u s).inputs = s.inputs := rfl
@[simp] theorem writeAngle_trace (u : AngleStep) (s : State) : (writeAngle u s).trace = s.trace := rfl

/-! ### `seedTracker` -/

@[simp] theorem seedTracker_cfg (r : Raw) (n : Nat) (s : State) : (seedTracker r n s).cfg = s.cfg := rfl
@[simp] theorem seedTracker_tracker (r : Raw) (n : Nat) (s : State) : (seedTracker r n s).tracker = { s.tracker with prevRaw := r, turns := 0, zeroOfs := 0, prevAngle := 0, prevTs := n } := rfl
@[simp] theorem seedTracker_control (r : Raw) (n : Nat) (s : State) : (seedTracker r n s).control = { s.control with lastWrap := .noWrap, lstate := .ready } := rfl
@[simp] theorem seedTracker_response (r : Raw) (n : Nat) (s : State) : (seedTracker r n s).response = s.response := rfl
@[simp] theorem seedTracker_pins (r : Raw) (n : Nat) (s : State) : (seedTracker r n s).pins = s.pins := rfl
@[simp] theorem seedTracker_seq (r : Raw) (n : Nat) (s : State) : (seedTracker r n s).seq = s.seq := rfl
@[simp] theorem seedTracker_inputs (r : Raw) (n : Nat) (s : State) : (seedTracker r n s).inputs = s.inputs := rfl
@[simp] theorem seedTracker_trace (r : Raw) (n : Nat) (s : State) : (seedTracker r n s).trace = s.trace := rfl

/-! ### `rezero` -/

@[simp] theorem rezero_cfg (z : Int) (s : State) : (rezero z s).cfg = s.cfg := rfl
@[simp] theorem rezero_tracker (z : Int) (s : State) : (rezero z s).tracker = { s.tracker with zeroOfs := z, turns := 0 } := rfl
@[simp] theorem rezero_control (z : Int) (s : State) : (rezero z s).control = s.control := rfl
@[simp] theorem rezero_response (z : Int) (s : State) : (rezero z s).response = s.response := rfl
@[simp] theorem rezero_pins (z : Int) (s : State) : (rezero z s).pins = s.pins := rfl
@[simp] theorem rezero_seq (z : Int) (s : State) : (rezero z s).seq = s.seq := rfl
@[simp] theorem rezero_inputs (z : Int) (s : State) : (rezero z s).inputs = s.inputs := rfl
@[simp] theorem rezero_trace (z : Int) (s : State) : (rezero z s).trace = s.trace := rfl

/-! ### `applyReset` (R42, R240, R241) -/

@[simp] theorem applyReset_cfg (s : State) : (applyReset s).cfg = s.cfg := rfl
@[simp] theorem applyReset_tracker (s : State) : (applyReset s).tracker = (State.resetWith s.cfg).tracker := rfl
@[simp] theorem applyReset_control (s : State) : (applyReset s).control = (State.resetWith s.cfg).control := rfl
@[simp] theorem applyReset_response (s : State) : (applyReset s).response = (State.resetWith s.cfg).response := rfl
@[simp] theorem applyReset_pins (s : State) : (applyReset s).pins = (State.resetWith s.cfg).pins := rfl
@[simp] theorem applyReset_seq (s : State) : (applyReset s).seq = (State.resetWith s.cfg).seq := rfl
@[simp] theorem applyReset_inputs (s : State) : (applyReset s).inputs = { s.inputs with rst := none } := rfl
@[simp] theorem applyReset_trace (s : State) :
    (applyReset s).trace = s.trace ++ [.csMode .input, .clkMode .input] := rfl

/-! ### The inputs -/

@[simp] theorem takeData_cmd (q : Inputs) : (takeData q).cmd = q.cmd := rfl
@[simp] theorem takeData_data (q : Inputs) : (takeData q).data = q.data.tail := rfl
@[simp] theorem takeData_ts (q : Inputs) : (takeData q).ts = q.ts := rfl
@[simp] theorem takeData_rst (q : Inputs) : (takeData q).rst = q.rst := rfl
@[simp] theorem takeData_draws (q : Inputs) : (takeData q).draws = q.draws + 1 := rfl

/-- The draws after a sample are the later draws of before. -/
@[simp] theorem dataDraw_takeData (q : Inputs) (i : Nat) : dataDraw (takeData q) i = dataDraw q (i + 1) := by
  simp [dataDraw, takeData, Nat.add_comm i, Nat.add_assoc]

/-- Two states with the same parts are one state. -/
theorem State.ext_parts {s t : State} (h1 : s.cfg = t.cfg) (h2 : s.tracker = t.tracker) (h3 : s.control = t.control)
    (h4 : s.response = t.response) (h5 : s.pins = t.pins) (h6 : s.seq = t.seq) (h7 : s.inputs = t.inputs)
    (h8 : s.trace = t.trace) : s = t := by
  cases s; cases t; simp_all

end Sys2Proof.Machine
end

