-- ==== Sys2Proof/Laws/Transaction.lean ====
section
/-! SUPPORT. The transaction (spec/40_transport.md R101), stated once and whole: `transact_eq` says every part of the state
after it, so that no later proof runs the sequencer. -/
namespace Sys2Proof.Machine

open Sys2Proof

/-- One round of the loop: `BIT_HI`, then `BIT_LO`. -/
def bitRound (s : State) : State := enterPhase .bitLo (enterPhase .bitHi s)

/-- `n` rounds of the loop. -/
def bitRounds : Nat → State → State
  | 0, s => s
  | n + 1, s => bitRounds n (bitRound s)

theorem ticks_succ (n : Nat) (s : State) : ticks (n + 1) s = ticks n (tick s) := rfl

theorem ticks_add (m n : Nat) (s : State) : ticks (m + n) s = ticks n (ticks m s) := by
  induction m generalizing s with
  | zero => simp [ticks]
  | succ m ih => rw [Nat.succ_add, ticks_succ, ih, ticks_succ]

/-- At the head of the loop, before the eighteenth sample, two ticks are one round. -/
theorem two_ticks_eq_bitRound {s : State} (hp : s.seq.phase = .clkSetup ∨ s.seq.phase = .bitLo)
    (hb : s.seq.bitIdx < 18) : ticks 2 s = bitRound s := by
  have h1 : tick s = enterPhase .bitHi s := by
    rcases hp with hp | hp <;> simp only [tick, nextPhase, loopHead, hp, if_pos hb]
  have h2 : nextPhase (enterPhase .bitHi s).seq = .bitLo := by simp [enterPhase, nextPhase]
  simp only [ticks, h1, bitRound]
  rw [tick, h2]

@[simp] theorem bitRound_phase (s : State) : (bitRound s).seq.phase = .bitLo := by simp [bitRound, enterPhase]
@[simp] theorem bitRound_bitIdx (s : State) : (bitRound s).seq.bitIdx = s.seq.bitIdx + 1 := by
  simp [bitRound, enterPhase]

@[simp] theorem bitRound_cfg (s : State) : (bitRound s).cfg = s.cfg := by simp [bitRound, enterPhase]
@[simp] theorem bitRound_tracker (s : State) : (bitRound s).tracker = s.tracker := by simp [bitRound, enterPhase]
@[simp] theorem bitRound_control (s : State) : (bitRound s).control = s.control := by simp [bitRound, enterPhase]
@[simp] theorem bitRound_response (s : State) : (bitRound s).response = s.response := by simp [bitRound, enterPhase]
@[simp] theorem bitRound_pins (s : State) : (bitRound s).pins = { s.pins with clkLvl := 0 } := by
  simp [bitRound, enterPhase]
@[simp] theorem bitRound_inputs (s : State) : (bitRound s).inputs = takeData s.inputs := by simp [bitRound, enterPhase]
@[simp] theorem bitRound_shift (s : State) : (bitRound s).seq.shift = shiftIn s.seq.shift (dataDraw s.inputs 0) := by
  simp [bitRound, enterPhase]
@[simp] theorem bitRound_trace (s : State) : (bitRound s).trace = s.trace ++
    [.clk 1, .dwell s.cfg.tSettle, .sample (dataDraw s.inputs 0), .clk 0, .dwell s.cfg.tSettle] := by
  simp [bitRound, enterPhase]

/-- The loop (R101): from `BITIDX = 18 - n` it runs `n` rounds. -/
theorem ticks_loop (n : Nat) {s : State} (hn : n ≤ 18) (hp : s.seq.phase = .clkSetup ∨ s.seq.phase = .bitLo)
    (hb : s.seq.bitIdx = BitVec.ofNat 5 (18 - n)) : ticks (2 * n) s = bitRounds n s := by
  induction n generalizing s with
  | zero => rfl
  | succ n ih =>
    have hlt : s.seq.bitIdx < 18 := by
      rw [hb, BitVec.lt_def]; simp; omega
    rw [show 2 * (n + 1) = 2 + 2 * n by omega, ticks_add, two_ticks_eq_bitRound hp hlt]
    refine ih (by omega) (Or.inr (bitRound_phase s)) ?_
    rw [bitRound_bitIdx, hb]
    apply BitVec.eq_of_toNat_eq
    simp
    omega

/-- The frame after `n` samples from `f` (R101). -/
def shiftDraws (q : Inputs) : Nat → Frame → Frame
  | 0, f => f
  | n + 1, f => shiftDraws (takeData q) n (shiftIn f (dataDraw q 0))

/-- The events of `n` rounds. -/
def roundEvents (c : Config) (q : Inputs) (n : Nat) : List PinEvent :=
  (List.range n).flatMap
    (fun i => [.clk 1, .dwell c.tSettle, .sample (dataDraw q i), .clk 0, .dwell c.tSettle])

theorem roundEvents_succ (c : Config) (q : Inputs) (n : Nat) :
    roundEvents c q (n + 1) =
      [.clk 1, .dwell c.tSettle, .sample (dataDraw q 0), .clk 0, .dwell c.tSettle] ++ roundEvents c (takeData q) n := by
  simp [roundEvents, List.range_succ_eq_map, List.flatMap_map]

/-- What `n` rounds do to every part of the state. -/
theorem bitRounds_parts (n : Nat) (s : State) :
    (bitRounds n s).cfg = s.cfg ∧ (bitRounds n s).tracker = s.tracker ∧ (bitRounds n s).control = s.control ∧
    (bitRounds n s).response = s.response ∧ (bitRounds n s).pins.csMode = s.pins.csMode ∧
    (bitRounds n s).pins.clkMode = s.pins.clkMode ∧ (bitRounds n s).pins.csLvl = s.pins.csLvl ∧
    (bitRounds n s).seq.shift = shiftDraws s.inputs n s.seq.shift ∧
    (bitRounds n s).seq.bitIdx = s.seq.bitIdx + BitVec.ofNat 5 n ∧
    (bitRounds n s).inputs = { s.inputs with data := s.inputs.data.drop n, draws := s.inputs.draws + n } ∧
    (bitRounds n s).trace = s.trace ++ roundEvents s.cfg s.inputs n := by
  induction n generalizing s with
  | zero => simp [bitRounds, shiftDraws, roundEvents]
  | succ n ih =>
    obtain ⟨h1, h2, h3, h4, h5, h6, h7, h8, h9, h10, h11⟩ := ih (bitRound s)
    simp only [bitRounds, h1, h2, h3, h4, h5, h6, h7, h8, h9, h10, h11, roundEvents_succ]
    simp only [bitRound_cfg, bitRound_tracker, bitRound_control, bitRound_response, bitRound_pins, bitRound_inputs,
      bitRound_shift, bitRound_trace, shiftDraws, true_and]
    refine ⟨?_, ?_, ?_⟩
    · rw [bitRound_bitIdx]
      apply BitVec.eq_of_toNat_eq
      simp
      omega
    · simp [takeData, Nat.add_assoc, Nat.add_comm 1]
    · simp

/-- The phase at the head of the loop after at least one round. -/
theorem bitRounds_phase (n : Nat) (s : State) : (bitRounds (n + 1) s).seq.phase = .bitLo := by
  induction n generalizing s with
  | zero => exact bitRound_phase s
  | succ n ih => exact ih (bitRound s)

/-- The two ticks after the loop: `END`, then `IDLE`. -/
theorem two_ticks_end {s : State} (hp : s.seq.phase = .bitLo) (hb : s.seq.bitIdx = 18) :
    ticks 2 s = enterPhase .idle (enterPhase .endTxn s) := by
  have h1 : tick s = enterPhase .endTxn s := by simp [tick, nextPhase, loopHead, hp, hb]
  have h2 : nextPhase (enterPhase .endTxn s).seq = .idle := by simp [enterPhase, nextPhase]
  simp only [ticks, h1]
  rw [tick, h2]

/-- The frame of a transaction as a bit vector. -/
def shiftedFrame (q : Inputs) : Frame := shiftDraws q 18 0

/-- `SsiTransaction()` (R101), every part of the state after it. -/
theorem ssiTransaction_eq (s : State) :
    ssiTransaction s =
      { s with
        pins := { s.pins with csLvl := csEndLevel s.cfg, clkLvl := 1 }
        seq := { phase := .idle, bitIdx := 18, shift := shiftedFrame s.inputs, settle := 0 }
        inputs := afterTransaction s.inputs
        trace := s.trace ++ transactionEvents s.cfg s.inputs } := by
  set a := enterPhase .clkSetup (enterPhase .csSetup s) with ha
  have hap : a.seq.phase = .clkSetup := by simp [ha, enterPhase]
  have hab : a.seq.bitIdx = 0 := by simp [ha, enterPhase]
  have h1 : ssiTransaction s = ticks 2 (ticks (2 * 18) a) := by
    rw [← ticks_add]
    have : tick (enterPhase .csSetup s) = a := by simp [tick, nextPhase, enterPhase, ha]
    rw [← this, ← ticks_succ]
    rfl
  have h2 : ticks (2 * 18) a = bitRounds 18 a := ticks_loop 18 (by omega) (Or.inl hap) hab
  obtain ⟨p1, p2, p3, p4, p5, p6, p7, p8, p9, p10, p11⟩ := bitRounds_parts 18 a
  have hb : (bitRounds 18 a).seq.bitIdx = 18 := by rw [p9, hab]; rfl
  rw [h1, h2, two_ticks_end (bitRounds_phase 17 a) hb]
  apply State.ext_parts <;> simp only [enterPhase, setPhase_cfg, setPhase_tracker, setPhase_control, setPhase_response,
    setPhase_pins, setPhase_seq, setPhase_inputs, setPhase_trace, driveCs_cfg, driveCs_tracker, driveCs_control,
    driveCs_response, driveCs_pins, driveCs_seq, driveCs_inputs, driveCs_trace, driveClk_cfg, driveClk_tracker,
    driveClk_control, driveClk_response, driveClk_pins, driveClk_seq, driveClk_inputs, driveClk_trace, p1, p2, p3, p4,
    p5, p6, p7, p8, p10, p11, hb]
  · rfl
  · rfl
  · rfl
  · rfl
  · rfl
  · rfl
  · rfl
  · simp [ha, enterPhase, transactionEvents, roundEvents]

/-- `transact` (R101, R258), every part of the state after it. -/
theorem transact_eq (s : State) :
    transact s =
      { s with
        pins := { s.pins with csLvl := csEndLevel s.cfg, clkLvl := 1 }
        seq := { phase := .idle, bitIdx := 18, shift := shiftedFrame s.inputs, settle := 0 }
        inputs := afterTransaction s.inputs
        trace := s.trace ++ .dwell s.cfg.tCsIdle :: transactionEvents s.cfg s.inputs } := by
  rw [transact, ssiTransaction_eq]
  apply State.ext_parts <;> simp

@[simp] theorem transact_cfg (s : State) : (transact s).cfg = s.cfg := by rw [transact_eq]
@[simp] theorem transact_tracker (s : State) : (transact s).tracker = s.tracker := by rw [transact_eq]
@[simp] theorem transact_control (s : State) : (transact s).control = s.control := by rw [transact_eq]
@[simp] theorem transact_response (s : State) : (transact s).response = s.response := by rw [transact_eq]
@[simp] theorem transact_pins (s : State) :
    (transact s).pins = { s.pins with csLvl := csEndLevel s.cfg, clkLvl := 1 } := by rw [transact_eq]
@[simp] theorem transact_seq (s : State) :
    (transact s).seq = { phase := .idle, bitIdx := 18, shift := shiftedFrame s.inputs, settle := 0 } := by
  rw [transact_eq]
@[simp] theorem transact_inputs (s : State) : (transact s).inputs = afterTransaction s.inputs := by rw [transact_eq]
@[simp] theorem transact_trace (s : State) :
    (transact s).trace = s.trace ++ .dwell s.cfg.tCsIdle :: transactionEvents s.cfg s.inputs := by rw [transact_eq]

end Sys2Proof.Machine
end

