-- ==== Sys2Proof/Laws/Ops.lean ====
section
/-! SUPPORT. One lemma for each shared operation that says once everything it can do: the frame a transaction shifts in,
the legality check, the angle update, the wrap decision, and the step. -/
namespace Sys2Proof.Machine

open Sys2Proof

/-! ### The frame -/

theorem level_le_one (b : Level) : b.toNat ≤ 1 := by have := b.isLt; omega

/-- A shift of one sample doubles the frame and adds the sample, losing the top bit (R101). -/
theorem shiftIn_toNat (f : Frame) (b : Level) : (shiftIn f b).toNat = (2 * f.toNat + b.toNat) % 2 ^ 18 := by
  have hb := level_le_one b
  have hor : ∀ x : Nat, x <<< 1 ||| b.toNat = 2 * x + b.toNat := by
    intro x
    have := Nat.shiftLeft_add_eq_or_of_lt (show b.toNat < 2 ^ 1 by omega) x
    rw [← this, Nat.shiftLeft_eq]; omega
  simp only [shiftIn, BitVec.toNat_append, BitVec.extractLsb'_toNat, Nat.shiftRight_zero, hor]
  omega

theorem shiftIn_getLsbD_zero (f : Frame) (b : Level) : (shiftIn f b).getLsbD 0 = b.getLsbD 0 := by
  rw [shiftIn, BitVec.getLsbD_append]; simp

theorem shiftIn_getLsbD_succ (f : Frame) (b : Level) (j : Nat) (hj : j < 17) :
    (shiftIn f b).getLsbD (j + 1) = f.getLsbD j := by
  rw [shiftIn, BitVec.getLsbD_append]; simp [hj]

theorem shiftDraws_toNat (n : Nat) (q : Inputs) (f : Frame) (hn : n ≤ 18) (hf : f.toNat < 2 ^ (18 - n)) :
    (shiftDraws q n f).toNat = (List.range n).foldl (fun v i => 2 * v + (dataDraw q i).toNat) f.toNat := by
  induction n generalizing q f with
  | zero => rfl
  | succ n ih =>
    have hb := level_le_one (dataDraw q 0)
    have hp : 2 ^ (18 - n) = 2 * 2 ^ (18 - (n + 1)) := by rw [← pow_succ']; congr 1; omega
    have hle : 2 ^ (18 - n) ≤ 2 ^ 18 := Nat.pow_le_pow_right (by omega) (by omega)
    have h2 : (shiftIn f (dataDraw q 0)).toNat = 2 * f.toNat + (dataDraw q 0).toNat := by
      rw [shiftIn_toNat, Nat.mod_eq_of_lt (by omega)]
    rw [shiftDraws, ih _ _ (by omega) (by omega), h2, List.range_succ_eq_map, List.foldl_cons, List.foldl_map]
    simp

/-- The frame of a transaction is the number the 18 levels make, the first level the most significant bit (R61). -/
theorem shiftedFrame_toNat (q : Inputs) : (shiftedFrame q).toNat = drawnFrame q :=
  shiftDraws_toNat 18 q 0 (by omega) (by simp)

theorem drawnFrame_lt (q : Inputs) : drawnFrame q < 2 ^ 18 := shiftedFrame_toNat q ▸ (shiftedFrame q).isLt

theorem drawnRaw_lt (q : Inputs) : drawnRaw q < 4096 := by
  have := drawnFrame_lt q; unfold drawnRaw; omega

/-- Extraction is the quotient by 64 (R104). -/
theorem extract_toNat (f : Frame) : (extract f).toNat = f.toNat / 64 := by
  have := f.isLt
  simp only [extract, BitVec.extractLsb'_toNat, Nat.shiftRight_eq_div_pow]
  omega

@[simp] theorem extract_shiftedFrame_toNat (q : Inputs) : (extract (shiftedFrame q)).toNat = drawnRaw q := by
  rw [extract_toNat, shiftedFrame_toNat, drawnRaw]

/-! ### The pin trace -/

@[simp] theorem pinTrace_append (a b : List PinEvent) : pinTrace (a ++ b) = pinTrace a ++ pinTrace b :=
  List.filter_append ..

/-- The pin events of a transaction without its dwells (R102). -/
theorem pinTrace_transactionEvents (c : Config) (q : Inputs) :
    pinTrace (transactionEvents c q) = [.cs c.csActive, .clk 0] ++
      (List.range 18).flatMap (fun i => [.clk 1, .sample (dataDraw q i), .clk 0]) ++ [.clk 1, .cs (csEndLevel c)] := rfl

/-! ### The wrap decision -/

/-- The wrap decision in whole counts: an event from 3277 counts on (R137, R138). -/
theorem wrapOf_eq (d : Int) :
    wrapOf d = if 3277 ≤ d then .decremented else if d ≤ -3277 then .incremented else .noWrap := by
  unfold wrapOf cpr
  rcases abs_cases d with ⟨h, _⟩ | ⟨h, _⟩ <;> rw [h] <;> split_ifs <;> first | rfl | omega

/-- A wrap decision moves `TURNS` by at most one (R43). -/
theorem wrapTurns_range (w : Wrap) : -1 ≤ wrapTurns w ∧ wrapTurns w ≤ 1 := by cases w <;> decide

/-! ### Legality and the angle update -/

/-- Where the command is legal, `runLegal` runs its body (R202). -/
theorem runLegal_legal {i : Instr} {s : State} (body : State → State) (h : s.control.lstate ≠ .faulted)
    (hl : legalIn i s.control.lstate = true) : runLegal i body s = .next (body s) := by
  simp [runLegal, h, hl]

/-- Where it is not, it raises `NOT_READY` (R202). -/
theorem runLegal_illegal {i : Instr} {s : State} (body : State → State) (h : s.control.lstate ≠ .faulted)
    (hl : legalIn i s.control.lstate = false) :
    runLegal i body s = .next (raiseFault .notReady (encode i) s) := by
  simp [runLegal, h, hl]

/-- Everything `runLegal` can do. -/
theorem runLegal_cases {i : Instr} {body : State → State} {s t : State} (h : runLegal i body s = .next t) :
    (s.control.lstate = .faulted ∧ t = s) ∨
    (s.control.lstate ≠ .faulted ∧ legalIn i s.control.lstate = true ∧ t = body s) ∨
    (s.control.lstate ≠ .faulted ∧ legalIn i s.control.lstate = false ∧ t = raiseFault .notReady (encode i) s) := by
  unfold runLegal at h
  split_ifs at h with h1 h2
  · exact .inl ⟨h1, (Host.Outcome.next.inj h).symm⟩
  · exact .inr (.inl ⟨h1, h2, (Host.Outcome.next.inj h).symm⟩)
  · exact .inr (.inr ⟨h1, by simpa using h2, (Host.Outcome.next.inj h).symm⟩)

/-- `runLegal` always answers a next state. -/
theorem runLegal_total (i : Instr) (body : State → State) (s : State) : ∃ t, runLegal i body s = .next t := by
  unfold runLegal; split_ifs <;> exact ⟨_, rfl⟩

/-- Everything an angle update can do (R139): the rest of the command over the registers it writes, or `TURN_OVERFLOW`. -/
theorem withAngleUpdate_cases (i : Instr) (rest : AngleStep → State → State) (s : State) :
    let u := angleStep s.tracker (shiftedFrame s.inputs)
    (FitsSigned s.cfg.turnBits u.turns ∧ withAngleUpdate i rest s = rest u (writeAngle u (transact s))) ∨
    (¬ FitsSigned s.cfg.turnBits u.turns ∧
      withAngleUpdate i rest s = raiseFault .turnOverflow (encode i) (transact s)) := by
  intro u
  by_cases h : FitsSigned s.cfg.turnBits u.turns
  · exact .inl ⟨h, by simp only [withAngleUpdate, transact_cfg, transact_tracker, transact_seq]; exact if_pos h⟩
  · exact .inr ⟨h, by simp only [withAngleUpdate, transact_cfg, transact_tracker, transact_seq]; exact if_neg h⟩

/-! ### The step -/

/-- Everything a step can do: a reset, a wait, the fault of an illegal word, or the command accepted. -/
theorem step_cases (s : State) :
    (∃ n, s.inputs.rst = some n ∧ step s = .next (applyReset (beforeReset n s))) ∨
    (s.inputs.rst = none ∧ acceptable s = none ∧ step s = .next s) ∨
    (∃ w e, s.inputs.rst = none ∧ acceptable s = some w ∧ decode w = .error e ∧
      step s = .next (raiseFault .illegalCmd w (accept s))) ∨
    (∃ w i, s.inputs.rst = none ∧ acceptable s = some w ∧ decode w = .ok i ∧ step s = exec i (accept s)) := by
  unfold step
  cases hr : s.inputs.rst with
  | some n => exact .inl ⟨n, rfl, rfl⟩
  | none =>
    cases ha : acceptable s with
    | none => exact .inr (.inl ⟨rfl, rfl, rfl⟩)
    | some w =>
      cases hd : decode w with
      | error e => exact .inr (.inr (.inl ⟨w, e, rfl, rfl, hd, by simp [hd]⟩))
      | ok i => exact .inr (.inr (.inr ⟨w, i, rfl, rfl, hd, by simp [hd]⟩))

/-- A word is accepted only from the head of the port, with no command running and no fault standing (R45). -/
theorem acceptable_some {s : State} {w : CmdWord} (h : acceptable s = some w) :
    s.control.busy = false ∧ s.control.lstate ≠ .faulted ∧ s.inputs.cmd.head? = some w := by
  unfold acceptable at h
  split_ifs at h with hr
  simp only [cmdReady, Bool.and_eq_true, Bool.not_eq_true', bne_iff_ne] at hr
  exact ⟨hr.1, hr.2, h⟩

/-- A transaction cut short changes no parameter and no tracker, control or response register (R63, R66). -/
theorem ticks_keep (n : Nat) (s : State) :
    (ticks n s).cfg = s.cfg ∧ (ticks n s).tracker = s.tracker ∧ (ticks n s).control = s.control ∧
    (ticks n s).response = s.response := by
  induction n generalizing s with
  | zero => exact ⟨rfl, rfl, rfl, rfl⟩
  | succ n ih =>
    obtain ⟨h1, h2, h3, h4⟩ := ih (tick s)
    rw [ticks_succ, h1, h2, h3, h4]
    unfold tick
    cases nextPhase s.seq <;> exact ⟨rfl, rfl, rfl, rfl⟩

end Sys2Proof.Machine
end

