-- ==== Sys2Proof/Laws/PerInstr.lean ====
section
/-! SUPPORT. Facts about every command as syntax, one lemma a constructor. -/
namespace Sys2Proof.Laws.WordWellFormed

open Sys2Proof

/-- The word a command is encoded by passes every check of R84. -/
def Statement (i : Instr) : Prop := wellFormed i = true

theorem init : Statement .init := rfl
theorem getAngle : Statement .getAngle := rfl
theorem getVelocity : Statement .getVelocity := rfl
theorem calRelZero : Statement .calRelZero := rfl
theorem calAbsZero : Statement .calAbsZero := rfl
theorem hasAbsZero : Statement .hasAbsZero := rfl
theorem needsAbsSearch : Statement .needsAbsSearch := rfl
theorem close : Statement .close := rfl
theorem setDir (a : BitVec 1) : Statement (.setDir a) := by
  revert a; unfold Statement; decide
theorem readFrame : Statement .readFrame := rfl

end Sys2Proof.Laws.WordWellFormed
end

