-- ==== Sys2Proof/Tests/Slice0.lean ====
section
/-! SUPPORT. Tests with expected results from spec/95_test_vectors.md and the examples of the rules (the vector is named at
each), the smoke test of WellFormed, and a witness for the hypotheses of each statement that has some. -/
namespace Sys2Proof.Tests

open Sys2Proof Sys2Proof.Machine Sys2Proof.Claims

/-! ### The test states -/

/-- The parameters at their defaults, the two OPEN ones at 10 and 1000. -/
def cfg : Config :=
  { tsBits := 32, turnBits := 32, tSettle := 10, tCsIdle := 1000, csActive := 0, csEndMode := .release, absRetSign := .plus }

/-- The 18 levels of a frame, the most significant first (R61). -/
def levels (f : Frame) : List Level := (List.range 18).map (fun i => f.extractLsb' (17 - i) 1)

/-- `F(r)` of the test vectors: the levels of the frame with position `r` and low bits 0. -/
def pos (r : Raw) : List Level := levels (r ++ 0#6)

/-- A block after reset with parameters `c`, whose ports hold a word, levels of `DATA` and timestamps. -/
def fresh (c : Config) (w : CmdWord) (data : List Level := []) (ts : List Nat := []) : State :=
  { State.resetWith c with inputs := { cmd := [w], data := data, ts := ts, rst := none, draws := 0 } }

/-- The same block in `READY`, its lines driven, its tracker `k`. -/
def ready (c : Config) (k : Tracker) (w : CmdWord) (data : List Level := []) (ts : List Nat := []) : State :=
  let s := fresh c w data ts
  { s with
    tracker := k
    control := { s.control with lstate := .ready }
    pins := { csMode := .output, clkMode := .output, csLvl := 1, clkLvl := 1 } }

/-- A tracker with the registers a vector names. -/
def tracker (prevRaw : Raw) (turns : Int := 0) (zeroOfs : Int := 0) (dir : BitVec 1 := 0) (prevAngle : Int := 0)
    (prevTs : Nat := 0) : Tracker :=
  { prevRaw := prevRaw, turns := turns, zeroOfs := zeroOfs, prevAngle := prevAngle, prevTs := prevTs, natDir := dir }

/-- What a test looks at in the state after one step. -/
def after {α : Type} (s : State) (look : State → α) : Option α :=
  match step s with
  | .next t => some (look t)
  | .fault _ => none
  | .refused _ => none

/-! ### WellFormed: a term each check refuses -/

theorem test_wf_refuses_reserved_bits : (CommandFields.mk 1 0 1).rsvOk = false ∧ (CommandFields.mk 1 0 1).wellFormed = false := by
  decide
theorem test_wf_refuses_opcode_zero : (CommandFields.mk 0 0 0).opOk = false ∧ (CommandFields.mk 0 0 0).wellFormed = false := by
  decide
theorem test_wf_refuses_opcode_high : (CommandFields.mk 0 0 0xB).opOk = false ∧ (CommandFields.mk 0 0 0xB).wellFormed = false := by
  decide
theorem test_wf_refuses_stray_arg : (CommandFields.mk 0 1 2).argOk = false ∧ (CommandFields.mk 0 1 2).wellFormed = false := by
  decide
theorem test_wf_admits_set_dir_minus : (CommandFields.mk 0 1 9).wellFormed = true := by decide

/-! ### Decoding (R83, V-DEC) -/

theorem test_decode_init : decode 0b00000001 = .ok .init := by decide
theorem test_decode_get_angle : decode 0b00000010 = .ok .getAngle := by decide
theorem test_decode_get_velocity : decode 0b00000011 = .ok .getVelocity := by decide
theorem test_decode_cal_rel_zero : decode 0b00000100 = .ok .calRelZero := by decide
theorem test_decode_cal_abs_zero : decode 0b00000101 = .ok .calAbsZero := by decide
theorem test_decode_has_abs_zero : decode 0b00000110 = .ok .hasAbsZero := by decide
theorem test_decode_needs_abs_search : decode 0b00000111 = .ok .needsAbsSearch := by decide
theorem test_decode_close : decode 0b00001000 = .ok .close := by decide
theorem test_decode_set_dir : decode 0b00001001 = .ok (.setDir 0) ∧ decode 0b00011001 = .ok (.setDir 1) := by decide
theorem test_decode_read_frame : decode 0b00001010 = .ok .readFrame := by decide
theorem test_decode_illegal : decode 0x00 = .error .reservedOpcode ∧ decode 0x0B = .error .reservedOpcode ∧
    decode 0x10 = .error .reservedOpcode ∧ decode 0x12 = .error .strayArgument ∧ decode 0x1A = .error .strayArgument ∧
    decode 0x29 = .error .reservedBits ∧ decode 0xFF = .error .reservedBits := by decide

/-! ### The transaction -/

/-- V-SSI: the frame of the levels `1,0,1,0,1,0,1,0,1,0,1,0,1,0,0,0,0,1`. -/
theorem test_transaction_frame :
    (ssiTransaction (ready cfg (tracker 0) 0 [1, 0, 1, 0, 1, 0, 1, 0, 1, 0, 1, 0, 1, 0, 0, 0, 0, 1])).seq.shift = 0x2AAA1 := by
  decide +kernel
/-- V-SSI: 58 pin events, at least `38 × T_SETTLE`. -/
theorem test_transaction_trace :
    let t := ssiTransaction (ready cfg (tracker 0) 0)
    (pinTrace t.trace).length = 58 ∧ leastDuration t.trace = 380 := by decide +kernel
/-- V-EXT. -/
theorem test_extract : extract 0x3FE80 = 4090 ∧ extract 0x0003F = 0 ∧ extract 0x00040 = 1 ∧ extract 0x2AAAA = 2730 := by
  decide

/-! ### The commands -/

/-- V-INIT, the reset row. -/
theorem test_init : after (fresh cfg 0x01 (levels 0x3FE80) [77])
      (fun t => (t.tracker, statusWord t, t.response.a, t.pins)) =
    some (tracker 4090 0 0 0 0 77, 0x0402, 4090, ⟨.output, .output, 1, 1⟩) := by decide +kernel
/-- V-INIT, the second row: `NAT_DIR` is kept. -/
theorem test_init_reseeds : after (ready cfg (tracker 0 5 300 1) 0x01 (pos 7) [9])
      (fun t => (t.tracker, statusWord t)) = some (tracker 7 0 0 1 0 9, 0x0602) := by decide +kernel
/-- V-ANG, the row with `TURNS = -2`. -/
theorem test_get_angle : after (ready cfg (tracker 10 (-2) (-5)) 0x02 (pos 4000))
      (fun t => (t.response.a, t.response.b, t.tracker, t.control.lastWrap)) =
    some (-8283, 4000, tracker 4000 (-3) (-5), .decremented) := by decide +kernel
/-- V-ANG, the row with `dir = -1`. -/
theorem test_get_angle_reversed : after (ready cfg (tracker 4090 0 0 1) 0x02 (levels 0x00140))
      (fun t => (t.response.a, t.response.x, t.tracker.turns)) = some (-4101, some (.rad (-4101)), 1) := by decide +kernel
/-- V-VEL: `PREV_TS = 2^32 - 100`, `now = 400` gives 500 µs. -/
theorem test_get_velocity : after (ready cfg (tracker 0 0 0 0 0 4294967196) 0x03 (levels 0x10000) [400])
      (fun t => (t.response.a, t.response.b, t.tracker.prevAngle, t.tracker.prevTs)) =
    some (1024, 500, 1024, 400) := by decide +kernel
/-- V-VEL: the overflow with `TURN_BITS = 2` writes neither `PREV_ANGLE` nor `PREV_TS`. -/
theorem test_get_velocity_overflow :
    after (ready { cfg with turnBits := 2 } (tracker 4095 1 0 0 4096 500) 0x03 (pos 0) [900])
      (fun t => (t.tracker, t.control.faultCode, t.control.faultCmd)) =
    some (tracker 4095 1 0 0 4096 500, .turnOverflow, 0x03) := by decide +kernel
/-- V-CAL-1. -/
theorem test_cal_rel_zero : after (ready cfg (tracker 100 2) 0x04 (levels 0x01900))
      (fun t => (t.response.a, t.response.b, t.tracker)) = some (-8292, 100, tracker 100 0 100) := by decide +kernel
/-- V-CAL-3, row 4. -/
theorem test_cal_rel_zero_reversed : after (ready cfg (tracker 1234 0 0 1) 0x04 (pos 1234))
      (fun t => (t.response.a, t.tracker)) = some (1234, tracker 1234 0 (-1234) 1) := by decide +kernel
/-- V-CAL-2. -/
theorem test_cal_abs_zero : after (ready cfg (tracker 7 3 1200) 0x05)
      (fun t => (t.response.a, t.tracker)) = some (1200, tracker 7 0 0) := by decide +kernel
/-- V-CAL-2 with `ABS_RET_SIGN = -1`. -/
theorem test_cal_abs_zero_minus : after (ready { cfg with absRetSign := .minus } (tracker 7 3 1200) 0x05)
      (fun t => (t.response.a, t.response.x)) = some (-1200, some (.rad (-1200))) := by decide +kernel
/-- V-FLAG. -/
theorem test_has_abs_zero : after (fresh cfg 0x06) (fun t => (t.response.a, t.response.op, statusWord t)) =
    some (1, 0x6, 0x0400) := by decide +kernel
/-- V-FLAG. -/
theorem test_needs_abs_search : after (ready cfg (tracker 0) 0x07) (fun t => (t.response.a, t.response.op, statusWord t)) =
    some (0, 0x7, 0x0402) := by decide +kernel
/-- V-CLOSE, the first row. -/
theorem test_close : after (ready cfg (tracker 0) 0x08)
      (fun t => (t.control.lstate, csPin t, clkPin t, t.tracker.prevRaw)) = some (.closed, none, none, 0) := by
  decide +kernel
/-- V-DIR, the first row. -/
theorem test_set_dir : after (fresh cfg 0x19) (fun t => (t.response.a, t.tracker.natDir, statusWord t)) =
    some (-1, 1, 0x0600) := by decide +kernel
/-- V-DIR, the second row. -/
theorem test_set_dir_plus : after (ready cfg (tracker 0 0 0 1) 0x09) (fun t => (t.response.a, t.tracker.natDir)) =
    some (1, 0) := by decide +kernel
/-- V-RF. -/
theorem test_read_frame : after (ready cfg (tracker 9 4 8) 0x0A (levels 0x10025))
      (fun t => (t.response.a, t.response.b, t.tracker)) = some (65573, 1024, tracker 9 4 8) := by decide +kernel
/-- V-RF in `UNINIT`. -/
theorem test_read_frame_not_ready : after (fresh cfg 0x0A) (fun t => (statusWord t, t.control.faultCmd, t.trace)) =
    some (0x0016, 0x0A, []) := by decide +kernel
/-- V-FAULT: the illegal word `0x12`, before `NOT_READY` (R205). -/
theorem test_illegal_word : after (fresh cfg 0x12) (fun t => (statusWord t, t.control.faultCmd)) = some (0x000E, 0x12) := by
  decide +kernel
/-- V-FAULT: the overflow downwards leaves `ZERO_OFS`. -/
theorem test_cal_overflow : after (ready { cfg with turnBits := 2 } (tracker 0 (-2) 6) 0x04 (pos 4095))
      (fun t => (t.control.faultCode, t.tracker.zeroOfs)) = some (.turnOverflow, 6) := by decide +kernel
/-- V-WRAP: 3276 counts are no wrap, 3277 are. -/
theorem test_wrap_threshold : wrapOf 3276 = .noWrap ∧ wrapOf 3277 = .decremented ∧ wrapOf (-3277) = .incremented ∧
    wrapOf (-3276) = .noWrap := by decide
/-- R241: a reset in the middle of a transaction, in the dwell before its first sample, leaves the reset values and a trace
cut short. -/
theorem test_reset_in_transaction :
    let s := ready cfg (tracker 9 4 8) 0x02 (pos 9)
    after { s with inputs := { s.inputs with rst := some 7 } } (fun t => (t.tracker, t.control.lstate, t.pins.csMode, t.trace)) =
    some (tracker 0, .uninit, .input,
      [.dwell 1000, .cs 0, .dwell 10, .clk 0, .dwell 10, .clk 1, .csMode .input, .clkMode .input]) := by decide +kernel
/-- R241: a reset as `GET_VELOCITY` has made its first sample: one reading of the time and one level are drawn. -/
theorem test_reset_after_sample :
    let s := ready cfg (tracker 9 4 8) 0x03 (levels 0x20001) [5, 6]
    after { s with inputs := { s.inputs with rst := some 9 } } (fun t => t.inputs) =
    some { cmd := [], data := (levels 0x20001).drop 1, ts := [6], rst := none, draws := 2 } := by decide +kernel

/-! ### Witnesses: the hypotheses of each statement are met together -/

theorem witness_illegal_word : Accepts (fresh cfg 0x00) 0x00 [] ∧ decode 0x00 = .error .reservedOpcode := by decide
theorem witness_step_runs : Accepts (fresh cfg 0x19) 0x19 [] ∧ decode 0x19 = .ok (.setDir 1) := by decide
theorem witness_fetch_word : (fresh cfg 0).control.busy = false ∧ (fresh cfg 0).control.lstate ≠ .faulted ∧
    decodeTableWord 8 0x09 = some (.setDir 0) := by decide
/-- A state in `FAULTED`, with a word waiting. -/
def inFault (rst : Option Nat) : State :=
  let s := faulted .illegalCmd 0x00 (fresh cfg 0x06)
  { s with inputs := { s.inputs with rst := rst } }
theorem witness_waits_faulted : (inFault none).inputs.rst = none ∧ (inFault none).control.lstate = .faulted := by decide
theorem witness_waits_busy :
    let s := accepted (fresh cfg 0x06) [0x06]
    s.inputs.rst = none ∧ s.control.busy = true := by decide
theorem witness_waits_empty : (State.resetWith cfg).inputs.rst = none ∧ (State.resetWith cfg).inputs.cmd = [] := by decide
theorem witness_reset_input : (inFault (some 0)).inputs.rst = some 0 := by decide
theorem witness_reset_in_command :
    let s := fresh cfg 0x01
    let r := { s with inputs := { s.inputs with rst := some 1 } }
    r.inputs.rst = some (0 + 1) ∧ r.control.busy = false ∧ r.control.lstate ≠ .faulted ∧ r.inputs.cmd = 0x01 :: [] ∧
      decode 0x01 = .ok .init := by decide
theorem witness_reset_leaves_fault : (inFault (some 0)).control.lstate = .faulted ∧
    after (inFault (some 0)) (fun t => t.control.lstate) = some .uninit := by decide +kernel
theorem witness_not_faulted : (fresh cfg 0x01).control.lstate ≠ .faulted := by decide
/-- A block in `READY` at `TURNS = 1` of `TURN_BITS = 2`, whose next sample keeps the count or moves it past the range. -/
def atEdge (w : CmdWord) (raw : Raw) : State := ready { cfg with turnBits := 2 } (tracker 4095 1 0 0 0 500) w (pos raw) [900]
theorem witness_turns_in_range : (atEdge 0x02 819).control.lstate = .ready ∧ TurnsInRange (atEdge 0x02 819) := by
  decide +kernel
theorem witness_turns_past_range : (atEdge 0x02 818).control.lstate = .ready ∧ ¬ TurnsInRange (atEdge 0x02 818) := by
  decide +kernel
theorem witness_velocity_in_range : TurnsInRange (takeNow (atEdge 0x03 819)) := by decide +kernel
theorem witness_velocity_past_range : ¬ TurnsInRange (takeNow (atEdge 0x03 818)) := by decide +kernel
theorem witness_uninit : (fresh cfg 0x02).control.lstate = .uninit := by decide
theorem witness_closed : after (ready cfg (tracker 0) 0x08) (fun t => t.control.lstate) = some .closed := by decide +kernel
theorem witness_frame_fits : (ready cfg (tracker 0) 0x0A (levels 0x3FFFF)).control.lstate = .ready ∧
    drawnFrame (ready cfg (tracker 0) 0x0A (levels 0x3FFFF)).inputs < 2 ^ (32 + 13) := by decide +kernel
theorem witness_frame_fits_narrow : drawnFrame (ready cfg (tracker 0) 0x0A (levels 0x3FFFF)).inputs < 2 ^ (5 + 13) := by
  decide +kernel
/-- `INIT` and `CLOSE` are legal in `UNINIT`, `READ_FRAME` in `READY`, and each completes (R64, R202). -/
theorem witness_legal : Legal .init (fresh cfg 0x01) ∧ Legal .close (fresh cfg 0x08) ∧
    Legal .readFrame (ready cfg (tracker 0) 0x0A) ∧ after (fresh cfg 0x01) (fun t => t.control.lstate) = some .ready ∧
    after (fresh cfg 0x08) (fun t => t.control.lstate) = some .closed := by decide +kernel
theorem witness_needs_ready : needsReady .readFrame ∧ (fresh cfg 0x0A).control.lstate = .uninit := by decide
theorem witness_allowed : (fresh cfg 0x06).control.lstate ≠ .faulted ∧ ¬ needsReady .hasAbsZero ∧
    (fresh cfg 0x06).control.faultCode = .noFault ∧ after (fresh cfg 0x06) (fun t => t.response.a) = some 1 := by
  decide +kernel
theorem witness_precise_not_ready : after (fresh cfg 0x02) (fun t => (t.control.lstate, t.control.faultCode)) =
    some (.faulted, .notReady) := by decide +kernel
theorem witness_precise_overflow : after (atEdge 0x02 818) (fun t => (t.control.lstate, t.control.faultCode)) =
    some (.faulted, .turnOverflow) := by decide +kernel
theorem witness_turn_moves : after (ready cfg (tracker 4095) 0x02 (pos 0)) (fun t => t.tracker.turns) = some 1 := by
  decide +kernel
/-- The clauses on `TURNS`: 3276 counts keep it and 3277 move it, zeroing from 5, another command, and a fault (R43, C2). -/
theorem witness_turns_clauses :
    let turns := fun t : State => (t.control.lstate, t.tracker.turns)
    after (ready cfg (tracker 0 5) 0x02 (pos 3276)) turns = some (.ready, 5) ∧
    after (ready cfg (tracker 0 5) 0x02 (pos 3277)) turns = some (.ready, 4) ∧
    after (ready cfg (tracker 0 5) 0x01 (pos 3277) [9]) turns = some (.ready, 0) ∧
    after (ready cfg (tracker 0 5) 0x04 (pos 3277)) turns = some (.ready, 0) ∧
    after (ready cfg (tracker 0 5) 0x05) turns = some (.ready, 0) ∧
    after (ready cfg (tracker 0 5) 0x08) turns = some (.closed, 5) ∧
    after (atEdge 0x04 818) turns = some (.faulted, 1) := by decide +kernel
theorem witness_direction_written : after (fresh cfg 0x19) (fun t => t.tracker.natDir) = some 1 ∧
    (fresh cfg 0x19).tracker.natDir = 0 := by decide +kernel
theorem witness_baseline_kept : Instr.getAngle ≠ .init ∧ Instr.getAngle ≠ .getVelocity := by decide
theorem witness_interval : (400 : Nat) < 2 ^ cfg.tsBits ∧ 4294967196 < 2 ^ cfg.tsBits := by decide
/-- The clauses of the interval statement at their edges (R151). -/
theorem witness_interval_edges : effectiveUs (elapsedUs cfg 700 700) = 1000 ∧ elapsedUs cfg 700 699 = 1 ∧ effectiveUs 1 = 1 ∧
    effectiveUs (elapsedUs cfg 500700 700) = 500000 ∧ effectiveUs (elapsedUs cfg 500701 700) = 1000 ∧
    elapsedUs cfg 699 700 = 4294967295 ∧ effectiveUs 4294967295 = 1000 := by decide +kernel
theorem witness_running_transaction : (0 : Nat) ≤ 40 ∧ (40 : Nat) ≤ 40 := by decide
theorem witness_sampling : |(819 : Int)| < 4096 ∧ |(-4095 : Int)| < 4096 ∧
    (((818 : Raw).toNat : Int) = ((4095 : Raw).toNat + 819) % 4096) := by decide
theorem witness_real_values : 1 ≤ effectiveUs 0 := by decide

/-- The registers of a `READY` state in range: `InRange` for the angle and the range statements. -/
theorem witness_in_range : InRange (atEdge 0x02 819) :=
  ⟨by decide, by decide, by decide, by decide, by decide, by decide, by decide⟩
/-- A `READY` state that meets the invariant and has a next step. -/
theorem witness_inv : Inv (atEdge 0x02 819) ∧ after (atEdge 0x02 819) (fun t => t.tracker.turns) = some 1 :=
  ⟨⟨witness_in_range, by decide, by decide, by decide, by decide, by decide, by decide⟩, by decide +kernel⟩
/-- A relative zero and the sample again, from a `READY` state (R173). -/
theorem witness_round_trip :
    let s := ready cfg (tracker 1234 0 0 1) 0x04 (pos 1234 ++ pos 1234)
    s.control.lstate = .ready ∧
      after s (fun t => (t.control.lstate, drawnRaw t.inputs, drawnRaw s.inputs)) = some (.ready, 1234, 1234) := by
  decide +kernel
/-- Two states that mirror each other (R152). -/
theorem witness_mirrored : Mirrored (ready cfg (tracker 4050) 0x02 (pos 10)) (ready cfg (tracker 4050 0 0 1) 0x02 (pos 10)) :=
  ⟨rfl, ⟨rfl, rfl⟩, ⟨rfl, rfl⟩, rfl, rfl, rfl, rfl, rfl, rfl⟩
theorem witness_mirrored_run : (∀ i ∈ [Instr.getAngle], i ≠ .calRelZero ∧ ∀ a, i ≠ .setDir a) ∧
    runAnswers [.getAngle] (ready cfg (tracker 4050) 0x02 (pos 10)) = some [4106] ∧
    runAnswers [.getAngle] (ready cfg (tracker 4050 0 0 1) 0x02 (pos 10)) = some [-4106] := by
  decide +kernel
theorem witness_wrap : wrapOf 3277 ≠ .noWrap ∧ (0 : Int) < 3277 ∧ wrapOf (-3277) ≠ .noWrap ∧ ¬ (0 : Int) < -3277 ∧
    wrapOf 3276 = .noWrap := by decide
/-- Two sensors that differ in the status bits only (R105). -/
theorem witness_status_bits : 18 ≤ (levels 0x10025).length ∧ 18 ≤ (levels 0x10000).length ∧
    (levels 0x10025).take 12 = (levels 0x10000).take 12 ∧ levels 0x10025 ≠ levels 0x10000 := by
  decide

end Sys2Proof.Tests
end

section
/-! The state and its invariants (spec/10_state.md): what every command and every step keeps. -/
namespace Sys2Proof.Machine

open Sys2Proof

/-! ### One body per command -/

/-- The end of `GET_ANGLE` (R145). -/
def answerAngle (u : AngleStep) (s : State) : State :=
  respond .getAngle u.angle (u.raw.setWidth 32) (some (.rad u.angle)) s

theorem getVelocityBody_eq (s : State) :
    getVelocityBody s = withAngleUpdate .getVelocity
      (answerVelocity (nowDraw s) (effectiveUs (elapsedUs s.cfg (nowDraw s) s.tracker.prevTs))) (takeNow s) := rfl

/-- What a command does where it is legal; `exec_eq_runLegal` ties it to `exec`. -/
def commandBody : Instr → State → State
  | .init => initBody
  | .getAngle => withAngleUpdate .getAngle answerAngle
  | .getVelocity => getVelocityBody
  | .calRelZero => withAngleUpdate .calRelZero answerRelZero
  | .calAbsZero => calAbsZeroBody
  | .hasAbsZero => respond .hasAbsZero hasAbs 0 none
  | .needsAbsSearch => respond .needsAbsSearch needsSearch 0 none
  | .close => closeBody
  | .setDir a => setDirBody a
  | .readFrame => readFrameBody

/-- Every command is its body behind the legality check (R202). -/
theorem exec_eq_runLegal (i : Instr) (s : State) : exec i s = runLegal i (commandBody i) s := by
  cases i <;> rfl

/-- Everything a command can do: nothing in `FAULTED`, its body where it is legal, `NOT_READY` where it is not. -/
theorem exec_cases {i : Instr} {s t : State} (h : exec i s = .next t) :
    (s.control.lstate = .faulted ∧ t = s) ∨
    (s.control.lstate ≠ .faulted ∧ legalIn i s.control.lstate = true ∧ t = commandBody i s) ∨
    (s.control.lstate ≠ .faulted ∧ legalIn i s.control.lstate = false ∧ t = raiseFault .notReady (encode i) s) :=
  runLegal_cases (exec_eq_runLegal i s ▸ h)

/-! ### The ranges of the registers (R10, R12) -/

/-- A value that fits a register fits every wider one. -/
theorem FitsSigned.mono {m n : Nat} {v : Int} (h : FitsSigned m v) (hmn : m ≤ n) : FitsSigned n v := by
  obtain ⟨hlo, hhi⟩ := h
  have hpow : 2 ^ (m - 1) ≤ 2 ^ (n - 1) := Nat.pow_le_pow_right (by omega) (by omega)
  constructor <;> omega

/-- The difference of two values fits one bit more (R153). -/
theorem FitsSigned.sub {n : Nat} {v w : Int} (hv : FitsSigned (n + 1) v) (hw : FitsSigned (n + 1) w) :
    FitsSigned (n + 2) (v - w) := by
  obtain ⟨hvlo, hvhi⟩ := hv
  obtain ⟨hwlo, hwhi⟩ := hw
  have hpow : 2 ^ (n + 2 - 1) = 2 * 2 ^ (n + 1 - 1) := Nat.pow_succ'
  constructor <;> omega

theorem angleBits_le_dcountBits (c : Config) : angleBits c ≤ dcountBits c := Nat.le_succ _

theorem fitsSigned_zero (n : Nat) : FitsSigned n 0 := by
  have hpos := Nat.two_pow_pos (n - 1)
  constructor <;> omega

/-- What fits 13 bits, as an offset or a position does, fits `RSP_A`. -/
theorem fitsSigned_dcountBits_of_le {v : Int} (c : Config) (hv : -4095 ≤ v ∧ v ≤ 4095) :
    FitsSigned (dcountBits c) v :=
  FitsSigned.mono (m := 13) ⟨by omega, by omega⟩ (by unfold dcountBits; omega)

theorem raw_le (r : Raw) : -4095 ≤ (r.toNat : Int) ∧ (r.toNat : Int) ≤ 4095 := by
  have hlt := r.isLt
  constructor <;> omega

theorem dirSign_cases (d : BitVec 1) : dirSign d = 1 ∨ dirSign d = -1 := by
  unfold dirSign
  split_ifs <;> simp

/-- The angle and its negation fit `PREV_ANGLE` where the turn count and the offset are in range (R139, R153). -/
theorem angleCounts_fits {c : Config} {t z : Int} (d : BitVec 1) (raw : Raw) (hc : 0 < c.turnBits)
    (ht : FitsSigned c.turnBits t) (hz : -4095 ≤ z ∧ z ≤ 4095) :
    FitsSigned (angleBits c) (angleCounts d t z raw) ∧ FitsSigned (angleBits c) (-angleCounts d t z raw) := by
  obtain ⟨htlo, hthi⟩ := ht
  have hraw := raw.isLt
  have hpow : 2 ^ (c.turnBits + 13 - 1) = 8192 * 2 ^ (c.turnBits - 1) := by
    rw [← Nat.pow_add 2 13]; congr 1; omega
  have hpos : 0 < 2 ^ (c.turnBits - 1) := Nat.two_pow_pos _
  unfold FitsSigned angleBits angleCounts cpr
  rw [hpow]
  rcases dirSign_cases d with hd | hd <;> rw [hd] <;> constructor <;> constructor <;> omega

/-- `READ_FRAME`'s answer fits `RSP_A`, whatever the frame (R107; log entry 5). -/
theorem frameResult_fits (c : Config) (draws : Nat) (f : Frame) :
    FitsSigned (dcountBits c) (frameResult c draws f) := by
  have hpow : 2 ^ (c.turnBits + 14) = 2 * 2 ^ (c.turnBits + 13) := Nat.pow_succ'
  have hpos : 0 < 2 ^ (c.turnBits + 13) := Nat.two_pow_pos _
  unfold FitsSigned dcountBits frameResult
  rw [show c.turnBits + 14 - 1 = c.turnBits + 13 by omega]
  split_ifs with hf
  · constructor <;> omega
  · have hlo := Int.le_bmod (x := Config.wideFrame draws) (m := 2 ^ (c.turnBits + 14)) (by omega)
    have hhi := Int.bmod_lt (x := Config.wideFrame draws) (m := 2 ^ (c.turnBits + 14)) (by omega)
    constructor <;> omega

theorem nowDraw_lt (s : State) : nowDraw s < 2 ^ s.cfg.tsBits := Nat.mod_lt _ (Nat.two_pow_pos _)

namespace InRange

variable {s : State}

theorem transact (h : InRange s) : InRange (transact s) := by
  rw [transact_eq]
  exact { h with bitIdxRange := BitVec.le_refl _ }

theorem takeNow (h : InRange s) : InRange (takeNow s) := { h with }

theorem seedTracker (h : InRange s) (raw : Raw) {now : Nat} (hn : now < 2 ^ s.cfg.tsBits) :
    InRange (seedTracker raw now s) :=
  { h with
    turnsFit := fitsSigned_zero _
    zeroOfsRange := (by decide : (-4095 : Int) ≤ 0 ∧ (0 : Int) ≤ 4095)
    prevAngleFit := fitsSigned_zero _
    prevTsFit := hn }

end InRange

/-! ### The state in which a command runs -/

/-- What holds from the acceptance of a command to its response or its fault: the invariant once `BUSY` is cleared, no
fault, and no response standing (R28, R33, R45). -/
def Running (s : State) : Prop :=
  Inv { s with control := { s.control with busy := false } } ∧ s.control.lstate ≠ .faulted ∧ s.response.valid = false

/-- Accepting a word makes a state between two steps one in which a command runs. -/
theorem Inv.running_accept {s : State} {w : CmdWord} (h : Inv s) (ha : acceptable s = some w) : Running (accept s) := by
  obtain ⟨-, hstate, -⟩ := acceptable_some ha
  exact ⟨{ h with
    inRange := { h.inRange with }
    quiet := ⟨rfl, h.quiet.2⟩
    noFaultResponse := fun _ => rfl }, hstate, rfl⟩

namespace Running

variable {s : State}

theorem inRange (h : Running s) : InRange s := { h.1.inRange with }

theorem noFault (h : Running s) : s.control.faultCode = .noFault := by
  obtain ⟨hinv, hstate, -⟩ := h
  exact by_contra fun hf => hstate (hinv.faultRecorded.mp hf)

/-- A fault ends the command in the invariant (R206). -/
theorem inv_raiseFault (h : Running s) {code : FaultCode} (hcode : code ≠ .noFault) (w : CmdWord) :
    Inv (raiseFault code w s) := by
  obtain ⟨hinv, hstate, hvalid⟩ := h
  have hlines : s.pins.driven s.cfg ∨ s.pins.released := by
    rcases hl : s.control.lstate with _ | _ | _ | _
    · exact .inr (hinv.unreadyReleased (.inl hl))
    · exact .inl (hinv.readyDriven hl)
    · exact .inr (hinv.unreadyReleased (.inr hl))
    · exact absurd hl hstate
  exact { hinv with
    inRange := { hinv.inRange with }
    readyDriven := nofun
    unreadyReleased := nofun
    faultedLines := fun _ => hlines
    faultRecorded := ⟨fun _ => rfl, fun _ => hcode⟩
    noFaultResponse := fun _ => hvalid }

/-- A response that fits `RSP_A` ends the command in the invariant (R33). -/
theorem inv_respond (h : Running s) (i : Instr) {a : Int} (ha : FitsSigned (dcountBits s.cfg) a) (b : BitVec 32)
    (x : Option RealValue) : Inv (respond i a b x s) := by
  obtain ⟨hinv, hstate, -⟩ := h
  exact { hinv with
    inRange := { hinv.inRange with rspAFit := ha }
    noFaultResponse := fun hf => absurd hf hstate }

/-- A transaction ends with the lines at their idle levels where they are driven (R111), and leaves them released where
they are released. -/
theorem transact (h : Running s) : Running (transact s) := by
  have hr := h.inRange.transact
  obtain ⟨hinv, hstate, hvalid⟩ := h
  rw [transact_eq] at hr ⊢
  refine ⟨{ hinv with
    inRange := { hr with }
    quiet := ⟨rfl, rfl, rfl⟩
    readyDriven := fun hl => ?_
    faultedLines := fun hf => absurd hf hstate }, hstate, hvalid⟩
  obtain ⟨hcs, hclk, -, -⟩ := hinv.readyDriven hl
  exact ⟨hcs, hclk, rfl, rfl⟩

theorem takeNow (h : Running s) : Running (takeNow s) := ⟨{ h.1 with inRange := { h.1.inRange with } }, h.2⟩

theorem writeAngle (h : Running s) {u : AngleStep} (hu : FitsSigned s.cfg.turnBits u.turns) :
    Running (writeAngle u s) :=
  ⟨{ h.1 with inRange := { h.1.inRange with turnsFit := hu } }, h.2⟩

theorem rezero (h : Running s) {ofs : Int} (ho : -4095 ≤ ofs ∧ ofs ≤ 4095) : Running (rezero ofs s) :=
  ⟨{ h.1 with
    inRange := { h.1.inRange with
      turnsFit := (fitsSigned_zero _ : FitsSigned s.cfg.turnBits 0)
      zeroOfsRange := ho } }, h.2⟩

/-- The new velocity baseline of `GET_VELOCITY` (R150). -/
theorem setBaseline (h : Running s) {angle : Int} {now : Nat} (ha : FitsSigned (angleBits s.cfg) angle)
    (hn : now < 2 ^ s.cfg.tsBits) :
    Running { s with tracker := { s.tracker with prevAngle := angle, prevTs := now } } :=
  ⟨{ h.1 with inRange := { h.1.inRange with prevAngleFit := ha, prevTsFit := hn } }, h.2⟩

theorem setDirection (h : Running s) (a : BitVec 1) :
    Running { s with tracker := { s.tracker with natDir := a } } :=
  ⟨{ h.1 with inRange := { h.1.inRange with } }, h.2⟩

/-- `CLOSE` leaves both lines released (R110). -/
theorem closeLines (h : Running s) :
    Running { setClkMode .input (setCsMode .input s) with control := { s.control with lstate := .closed } } := by
  have hnoFault := h.noFault
  obtain ⟨hinv, -, hvalid⟩ := h
  exact ⟨{ hinv with
    inRange := { hinv.inRange with }
    readyDriven := nofun
    unreadyReleased := fun _ => ⟨rfl, rfl⟩
    faultedLines := nofun
    faultRecorded := ⟨fun hf => absurd hnoFault hf, nofun⟩
    noFaultResponse := nofun }, nofun, hvalid⟩

/-- An angle update ends in the invariant when what the command does after it does (R139, R203). -/
theorem inv_withAngleUpdate (h : Running s) (i : Instr) {rest : AngleStep → State → State}
    (hrest : ∀ u v, Running v → v.cfg = s.cfg → v.tracker.prevAngle = s.tracker.prevAngle →
      FitsSigned (angleBits s.cfg) u.angle → FitsSigned (angleBits s.cfg) (-u.angle) → Inv (rest u v)) :
    Inv (withAngleUpdate i rest s) := by
  rcases withAngleUpdate_cases i rest s with ⟨hu, he⟩ | ⟨-, he⟩ <;> rw [he]
  · obtain ⟨hangle, hneg⟩ := angleCounts_fits s.tracker.natDir (extract (shiftedFrame s.inputs))
      h.inRange.cfgOk.2.1 hu h.inRange.zeroOfsRange
    exact hrest _ _ (h.transact.writeAngle (by simpa using hu)) (by simp) (by simp) hangle hneg
  · exact h.transact.inv_raiseFault (by decide) _

/-- `INIT` configures the lines, which the transaction leaves at their idle levels, and seeds the tracker, which makes
`READY` (R108, R142). -/
theorem seedTracker (h : Running s) (raw : Raw) {now : Nat}
    (hn : now < 2 ^ (Machine.transact (configureLines s)).cfg.tsBits) :
    Running (seedTracker raw now (Machine.takeNow (Machine.transact (configureLines s)))) := by
  have hlines : InRange (configureLines s) := { h.inRange with }
  have hr := hlines.transact.takeNow.seedTracker raw (now := now) (by rw [takeNow_cfg]; exact hn)
  have hnoFault := h.noFault
  have hvalid := h.2.2
  rw [transact_eq] at hr ⊢
  exact ⟨{
    inRange := { hr with }
    quiet := ⟨rfl, rfl, rfl⟩
    readyDriven := fun _ => ⟨rfl, rfl, rfl, rfl⟩
    unreadyReleased := nofun
    faultedLines := nofun
    faultRecorded := ⟨fun hf => absurd hnoFault hf, nofun⟩
    noFaultResponse := nofun }, nofun, hvalid⟩

theorem inv_initBody (h : Running s) : Inv (initBody s) := by
  have hseeded := h.seedTracker (extract (Machine.transact (configureLines s)).seq.shift)
    (nowDraw_lt (Machine.transact (configureLines s)))
  exact hseeded.inv_respond .init (fitsSigned_dcountBits_of_le _ (raw_le _)) 0 none

theorem inv_getAngleBody (h : Running s) : Inv (withAngleUpdate .getAngle answerAngle s) :=
  h.inv_withAngleUpdate .getAngle fun u v hv hc _ hangle _ =>
    hv.inv_respond .getAngle (by rw [hc]; exact hangle.mono (angleBits_le_dcountBits _)) _ _

theorem inv_getVelocityBody (h : Running s) : Inv (getVelocityBody s) := by
  rw [getVelocityBody_eq]
  refine h.takeNow.inv_withAngleUpdate .getVelocity fun u v hv hc hp hangle _ => ?_
  rw [takeNow_cfg] at hc hangle
  have hbase := hv.setBaseline (angle := u.angle) (now := nowDraw s) (by rw [hc]; exact hangle)
    (by rw [hc]; exact nowDraw_lt s)
  have hdiff : FitsSigned (dcountBits v.cfg) (u.angle - v.tracker.prevAngle) := by
    rw [hc, hp]
    exact hangle.sub h.inRange.prevAngleFit
  exact hbase.inv_respond .getVelocity hdiff _ _

theorem inv_calRelZeroBody (h : Running s) : Inv (withAngleUpdate .calRelZero answerRelZero s) :=
  h.inv_withAngleUpdate .calRelZero fun u v hv hc _ _ hneg => by
    have hofs : -4095 ≤ dirSign v.tracker.natDir * u.raw.toNat ∧
        dirSign v.tracker.natDir * u.raw.toNat ≤ 4095 := by
      have hraw := raw_le u.raw
      rcases dirSign_cases v.tracker.natDir with hd | hd <;> rw [hd] <;> omega
    exact (hv.rezero hofs).inv_respond .calRelZero
      (by rw [rezero_cfg, hc]; exact hneg.mono (angleBits_le_dcountBits _)) _ _

theorem inv_calAbsZeroBody (h : Running s) : Inv (calAbsZeroBody s) := by
  have hret : -4095 ≤ applyRetSign s.cfg.absRetSign s.tracker.zeroOfs ∧
      applyRetSign s.cfg.absRetSign s.tracker.zeroOfs ≤ 4095 := by
    have hz := h.inRange.zeroOfsRange
    cases s.cfg.absRetSign <;> simp only [applyRetSign] <;> omega
  exact (h.rezero (by decide)).inv_respond .calAbsZero (fitsSigned_dcountBits_of_le _ hret) _ _

theorem inv_closeBody (h : Running s) : Inv (closeBody s) :=
  h.closeLines.inv_respond .close (fitsSigned_zero _) 0 none

theorem inv_setDirBody (h : Running s) (a : BitVec 1) : Inv (setDirBody a s) := by
  have hsign : -4095 ≤ dirSign a ∧ dirSign a ≤ 4095 := by
    rcases dirSign_cases a with hd | hd <;> rw [hd] <;> decide
  exact (h.setDirection a).inv_respond (.setDir a) (fitsSigned_dcountBits_of_le _ hsign) 0 none

theorem inv_readFrameBody (h : Running s) : Inv (readFrameBody s) :=
  h.transact.inv_respond .readFrame (frameResult_fits ..) _ none

/-- The body of every command ends in the invariant. -/
theorem inv_commandBody (h : Running s) (i : Instr) : Inv (commandBody i s) := by
  cases i with
  | init => exact h.inv_initBody
  | getAngle => exact h.inv_getAngleBody
  | getVelocity => exact h.inv_getVelocityBody
  | calRelZero => exact h.inv_calRelZeroBody
  | calAbsZero => exact h.inv_calAbsZeroBody
  | hasAbsZero => exact h.inv_respond .hasAbsZero (fitsSigned_dcountBits_of_le _ (by decide)) 0 none
  | needsAbsSearch => exact h.inv_respond .needsAbsSearch (fitsSigned_zero _) 0 none
  | close => exact h.inv_closeBody
  | setDir a => exact h.inv_setDirBody a
  | readFrame => exact h.inv_readFrameBody

/-- Every command ends in the invariant, by its body or by `NOT_READY`. -/
theorem inv_exec (h : Running s) {i : Instr} {t : State} (he : exec i s = .next t) : Inv t := by
  rcases exec_cases he with ⟨hf, -⟩ | ⟨-, -, rfl⟩ | ⟨-, -, rfl⟩
  · exact absurd hf h.2.1
  · exact h.inv_commandBody i
  · exact h.inv_raiseFault (by decide) _

end Running

/-! ### Reset -/

theorem inv_resetWith {c : Config} (hc : c.wf) : Inv (State.resetWith c) where
  inRange :=
    { cfgOk := hc
      turnsFit := fitsSigned_zero _
      zeroOfsRange := (by decide : (-4095 : Int) ≤ 0 ∧ (0 : Int) ≤ 4095)
      prevAngleFit := fitsSigned_zero _
      prevTsFit := Nat.two_pow_pos _
      rspAFit := fitsSigned_zero _
      bitIdxRange := (by decide : (0 : BitVec 5) ≤ 18) }
  quiet := ⟨rfl, rfl, rfl⟩
  readyDriven := nofun
  unreadyReleased _ := ⟨rfl, rfl⟩
  faultedLines := nofun
  faultRecorded := ⟨fun hf => absurd rfl hf, nofun⟩
  noFaultResponse := nofun

/-- `Inv` speaks of no input and no trace, the parts in which a reset and the reset state differ. -/
theorem inv_applyReset {s : State} (hc : s.cfg.wf) : Inv (applyReset s) :=
  { inv_resetWith hc with inRange := { (inv_resetWith hc).inRange with } }

@[simp] theorem abandonAfter_cfg (n : Nat) (i : Instr) (s : State) : (abandonAfter n i s).cfg = s.cfg := by
  unfold abandonAfter
  split <;> rfl

@[simp] theorem beforeReset_cfg (n : Nat) (s : State) : (beforeReset n s).cfg = s.cfg := by
  unfold beforeReset
  split
  · rfl
  · rfl
  · split <;> simp

/-- Settles O31: the reset state meets the invariant for every choice of parameters that R9 admits. -/
theorem resetSatisfiesInv : Obligations.ResetSatisfiesInv :=
  inv_resetWith ⟨by decide, by decide, Nat.succ_pos _⟩

/-- Settles O32: acceptance leads from `Inv` to `Running`, which every operation of a command keeps, and a response or a
fault leads back to `Inv`. -/
theorem everyStepKeepsInv : Obligations.EveryStepKeepsInv := by
  intro s t h hstep
  rcases step_cases s with ⟨n, -, he⟩ | ⟨-, -, he⟩ | ⟨w, e, -, ha, -, he⟩ | ⟨w, i, -, ha, -, he⟩ <;>
    rw [he] at hstep
  · cases hstep
    exact inv_applyReset (by simpa using h.inRange.cfgOk)
  · cases hstep
    exact h
  · cases hstep
    exact (h.running_accept ha).inv_raiseFault (by decide) w
  · exact (h.running_accept ha).inv_exec hstep

end Sys2Proof.Machine
end

section
/-! The rules of spec/10_state.md on what a step does, what a command writes, and what the ports show. -/
namespace Sys2Proof.Machine

open Sys2Proof

/-! ### How a command ends -/

/-- Where `LSTATE` stands after a command that completes (R27). -/
def lstateAfter : Instr → LState → LState
  | .init, _ => .ready
  | .close, _ => .closed
  | .getAngle, l | .getVelocity, l | .calRelZero, l | .calAbsZero, l | .hasAbsZero, l | .needsAbsSearch, l
  | .setDir _, l | .readFrame, l => l

theorem lstateAfter_of_ne {i : Instr} (hinit : i ≠ .init) (hclose : i ≠ .close) (l : LState) :
    lstateAfter i l = l := by
  cases i with
  | init | close => contradiction
  | getAngle | getVelocity | calRelZero | calAbsZero | hasAbsZero | needsAbsSearch | setDir | readFrame => rfl

theorem lstateAfter_ne_faulted (i : Instr) {l : LState} (hl : l ≠ .faulted) : lstateAfter i l ≠ .faulted := by
  cases i with
  | init | close => nofun
  | getAngle | getVelocity | calRelZero | calAbsZero | hasAbsZero | needsAbsSearch | setDir | readFrame => exact hl

/-- `NAT_DIR` after a command that completes (R25). -/
def natDirAfter : Instr → BitVec 1 → BitVec 1
  | .setDir a, _ => a
  | .init, d | .getAngle, d | .getVelocity, d | .calRelZero, d | .calAbsZero, d | .hasAbsZero, d
  | .needsAbsSearch, d | .close, d | .readFrame, d => d

/-- `TURNS` after a command that completes from the tracker `k` and leaves `raw` in `PREV_RAW` (R43, C2). -/
def turnsAfter (k : Tracker) (raw : Raw) : Instr → Int
  | .getAngle | .getVelocity => k.turns + wrapTurns (wrapOf (sampleDelta raw k.prevRaw))
  | .init | .calRelZero | .calAbsZero => 0
  | .hasAbsZero | .needsAbsSearch | .close | .setDir _ | .readFrame => k.turns

section turnsAfter

variable {k : Tracker} {raw : Raw} {i : Instr}

theorem turnsAfter_of_update (hi : i = .getAngle ∨ i = .getVelocity) :
    turnsAfter k raw i = k.turns + wrapTurns (wrapOf (sampleDelta raw k.prevRaw)) := by
  rcases hi with rfl | rfl <;> rfl

theorem turnsAfter_of_zeroing (hi : i = .init ∨ i = .calRelZero ∨ i = .calAbsZero) : turnsAfter k raw i = 0 := by
  rcases hi with rfl | rfl | rfl <;> rfl

theorem turnsAfter_of_other (hupdate : ¬ (i = .getAngle ∨ i = .getVelocity))
    (hzero : ¬ (i = .init ∨ i = .calRelZero ∨ i = .calAbsZero)) : turnsAfter k raw i = k.turns := by
  cases i with
  | getAngle | getVelocity => simp at hupdate
  | init | calRelZero | calAbsZero => simp at hzero
  | hasAbsZero | needsAbsSearch | close | setDir | readFrame => rfl

end turnsAfter

/-- The command `i` has completed from `s` in `t`: the parameters, `LSTATE`, `NAT_DIR` and `TURNS`. -/
def Completed (i : Instr) (s t : State) : Prop :=
  t.cfg = s.cfg ∧ t.control.lstate = lstateAfter i s.control.lstate ∧
  t.tracker.natDir = natDirAfter i s.tracker.natDir ∧ t.tracker.turns = turnsAfter s.tracker t.tracker.prevRaw i

/-- The command `i`, which is neither `INIT` nor `CLOSE` since those two never fault, has faulted from `s` in `t`
(R206). -/
def FaultedFrom (i : Instr) (s t : State) : Prop :=
  t.cfg = s.cfg ∧ t.tracker = s.tracker ∧ t.control.lstate = .faulted ∧ t.control.faultCode ≠ .noFault ∧
  i ≠ .init ∧ i ≠ .close

/-- The body of a command completes, or faults where an angle update overflows. -/
theorem commandBody_outcome (i : Instr) (s : State) :
    Completed i s (commandBody i s) ∨ FaultedFrom i s (commandBody i s) := by
  cases i with
  | init =>
    exact .inl (by
      simp [Completed, commandBody, initBody, configureLines, lstateAfter, natDirAfter, turnsAfter])
  | getAngle =>
    rw [commandBody]
    rcases withAngleUpdate_cases .getAngle answerAngle s with ⟨-, he⟩ | ⟨-, he⟩ <;> rw [he]
    · exact .inl (by simp [Completed, answerAngle, angleStep, lstateAfter, natDirAfter, turnsAfter])
    · exact .inr (by simp [FaultedFrom])
  | getVelocity =>
    rw [commandBody, getVelocityBody_eq]
    rcases withAngleUpdate_cases .getVelocity
      (answerVelocity (nowDraw s) (effectiveUs (elapsedUs s.cfg (nowDraw s) s.tracker.prevTs))) (takeNow s)
      with ⟨-, he⟩ | ⟨-, he⟩ <;> rw [he]
    · exact .inl (by simp [Completed, answerVelocity, angleStep, lstateAfter, natDirAfter, turnsAfter])
    · exact .inr (by simp [FaultedFrom])
  | calRelZero =>
    rw [commandBody]
    rcases withAngleUpdate_cases .calRelZero answerRelZero s with ⟨-, he⟩ | ⟨-, he⟩ <;> rw [he]
    · exact .inl (by simp [Completed, answerRelZero, lstateAfter, natDirAfter, turnsAfter])
    · exact .inr (by simp [FaultedFrom])
  | readFrame =>
    exact .inl (by simp [Completed, commandBody, readFrameBody, lstateAfter, natDirAfter, turnsAfter])
  | calAbsZero | hasAbsZero | needsAbsSearch | close | setDir => exact .inl ⟨rfl, rfl, rfl, rfl⟩

/-- `INIT` and `CLOSE` are legal everywhere outside `FAULTED` (R202). -/
theorem ne_init_close_of_illegal {i : Instr} {l : LState} (hl : l ≠ .faulted) (h : legalIn i l = false) :
    i ≠ .init ∧ i ≠ .close := by
  constructor <;> rintro rfl <;> simp [legalIn, hl] at h

/-- Every command from a state that is not `FAULTED` completes or faults. -/
theorem exec_outcome {i : Instr} {s t : State} (hs : s.control.lstate ≠ .faulted) (h : exec i s = .next t) :
    Completed i s t ∨ FaultedFrom i s t := by
  rcases exec_cases h with ⟨hf, -⟩ | ⟨-, -, rfl⟩ | ⟨-, hill, rfl⟩
  · exact absurd hf hs
  · exact commandBody_outcome i s
  · obtain ⟨hinit, hclose⟩ := ne_init_close_of_illegal hs hill
    exact .inr ⟨rfl, rfl, rfl, nofun, hinit, hclose⟩

/-- In `FAULTED` a command does nothing (R207). -/
theorem exec_faulted {i : Instr} {s t : State} (hs : s.control.lstate = .faulted) (h : exec i s = .next t) : t = s := by
  rcases exec_cases h with ⟨-, rfl⟩ | ⟨hn, -⟩ | ⟨hn, -⟩
  · rfl
  · exact absurd hs hn
  · exact absurd hs hn

theorem exec_cfg {i : Instr} {s t : State} (h : exec i s = .next t) : t.cfg = s.cfg := by
  by_cases hs : s.control.lstate = .faulted
  · rw [exec_faulted hs h]
  · rcases exec_outcome hs h with ⟨hcfg, -⟩ | ⟨hcfg, -⟩
    · exact hcfg
    · exact hcfg

/-- Settles O36: reset keeps the parameters, and so does every command, however it ends. -/
theorem noStepChangesParameters : Obligations.NoStepChangesParameters := by
  intro s t hstep
  rcases step_cases s with ⟨n, -, he⟩ | ⟨-, -, he⟩ | ⟨w, e, -, -, -, he⟩ | ⟨w, i, -, -, -, he⟩ <;>
    rw [he] at hstep
  · cases hstep
    simp
  · cases hstep
    rfl
  · cases hstep
    rfl
  · simpa using exec_cfg hstep

/-- Settles O37: what a command that completes or faults leaves in `LSTATE`. -/
theorem lifecycleTransitions : Obligations.LifecycleTransitions := by
  intro i s t hs h
  rcases exec_outcome hs h with ⟨-, hl, -⟩ | ⟨-, -, hl, hcode, hinit, hclose⟩
  · refine ⟨?_, ?_, fun hinit hclose => .inl (hl.trans (lstateAfter_of_ne hinit hclose _))⟩
    · rintro rfl
      exact hl
    · rintro rfl
      exact hl
  · exact ⟨fun hi => absurd hi hinit, fun hi => absurd hi hclose, fun _ _ => .inr ⟨hl, hcode⟩⟩

/-- Settles O34: only `SET_DIR` completes with another direction, and a fault keeps it. -/
theorem onlySetDirWritesDirection : Obligations.OnlySetDirWritesDirection := by
  intro i s t h hchanged
  by_cases hs : s.control.lstate = .faulted
  · exact absurd (by rw [exec_faulted hs h]) hchanged
  · rcases exec_outcome hs h with ⟨-, -, hdir, -⟩ | ⟨-, htracker, -⟩
    · cases i with
      | setDir a => rw [hdir, natDirAfter]
      | init | getAngle | getVelocity | calRelZero | calAbsZero | hasAbsZero | needsAbsSearch | close | readFrame =>
        exact absurd hdir hchanged
    · exact absurd (by rw [htracker]) hchanged

/-! ### The turn count -/

/-- The wrap decision counts no turn up to the threshold of R137 and one turn past it (R138). -/
theorem wrapTurns_wrapOf_cases (d : Int) :
    (wrapTurns (wrapOf d) = 0 ∧ 5 * |d| ≤ 4 * 4096) ∨
      ((wrapTurns (wrapOf d) = 1 ∨ wrapTurns (wrapOf d) = -1) ∧ 4 * 4096 < 5 * |d|) := by
  rw [wrapOf_eq]
  split_ifs with hdown hup
  · exact .inr ⟨.inr rfl, by rw [abs_of_pos (by omega)]; omega⟩
  · exact .inr ⟨.inl rfl, by rw [abs_of_neg (by omega)]; omega⟩
  · have hd : |d| ≤ 3276 := abs_le.mpr ⟨by omega, by omega⟩
    exact .inl ⟨rfl, by omega⟩

/-- Settles O33: the turn count of a completing command is `turnsAfter`, and a fault keeps it. -/
theorem turnsMoveByOneTurn : Obligations.TurnsMoveByOneTurn := by
  intro i s t h moved delta update zeroing
  by_cases hs : s.control.lstate = .faulted
  · obtain rfl := exec_faulted hs h
    exact ⟨fun _ => sub_self _, fun hn => absurd hs hn⟩
  rcases exec_outcome hs h with ⟨-, hlstate, -, hturns⟩ | ⟨-, htracker, hlstate, -⟩
  · have hl : t.control.lstate ≠ .faulted := hlstate ▸ lstateAfter_ne_faulted i hs
    refine ⟨fun hf => absurd hf hl, fun _ => ⟨fun hu => ?_, fun hz => ?_, fun hu hz => ?_⟩⟩
    · have hmoved : moved = wrapTurns (wrapOf (sampleDelta t.tracker.prevRaw s.tracker.prevRaw)) :=
        sub_eq_of_eq_add' (hturns.trans (turnsAfter_of_update hu))
      rw [hmoved]
      exact wrapTurns_wrapOf_cases _
    · exact hturns.trans (turnsAfter_of_zeroing hz)
    · exact sub_eq_zero.mpr (hturns.trans (turnsAfter_of_other hu hz))
  · exact ⟨fun _ => by simp [moved, htracker], fun hn => absurd hlstate hn⟩

end Sys2Proof.Machine
end

section
/-! The ports of the block (spec/10_state.md R32, R40, R44, R45) and the reset values (R42). -/
namespace Sys2Proof.Machine

open Sys2Proof

/-! ### What the ports show while a transaction runs -/

/-- A phase of the sequencer adds to the pin trace and rewrites nothing of it (R102). -/
theorem enterPhase_extends_trace (p : Phase) (s : State) : s.trace <+: (enterPhase p s).trace := by
  cases p <;> simp [enterPhase]

theorem ticks_extends_trace (n : Nat) (s : State) : s.trace <+: (ticks n s).trace := by
  induction n generalizing s with
  | zero => exact ⟨[], List.append_nil _⟩
  | succ n ih => exact (enterPhase_extends_trace _ s).trans (ih (tick s))

/-- The whole transaction goes on from each of its parts (R66). -/
theorem transact_extends_transactPart (k : Nat) (s : State) : (transactPart k s).trace <+: (transact s).trace := by
  cases k with
  | zero => exact ⟨_, (transact_trace s).symm⟩
  | succ k =>
    have hsplit : transactionTicks = min k transactionTicks + (transactionTicks - min k transactionTicks) := by omega
    rw [transact, ssiTransaction, hsplit, ticks_add]
    exact ticks_extends_trace _ _

/-- The observation port reads the tracker, the control and the response registers, and nothing else (R40). -/
theorem observe_congr {s t : State} (htracker : t.tracker = s.tracker) (hcontrol : t.control = s.control)
    (hresponse : t.response = s.response) : observe t = observe s := by
  simp only [observe, statusWord, htracker, hcontrol, hresponse]

theorem observe_transactPart (k : Nat) (s : State) : observe (transactPart k s) = observe s := by
  cases k with
  | zero => rfl
  | succ k =>
    obtain ⟨-, htracker, hcontrol, hresponse⟩ :=
      ticks_keep (min k transactionTicks) (enterPhase .csSetup (wait s.cfg.tCsIdle s))
    exact observe_congr htracker hcontrol hresponse

/-- Settles O16: the ticks write none of the registers the port shows, and only add to the trace. -/
theorem runningTransactionShowsOldRegisters : Obligations.RunningTransactionShowsOldRegisters := by
  intro s k _
  obtain ⟨rest, hrest⟩ := transact_extends_transactPart k s
  exact ⟨observe_transactPart k s, rest, hrest.symm⟩

/-! ### The command port -/

theorem accept_eq_accepted {s : State} {w : CmdWord} {rest : List CmdWord} (h : s.inputs.cmd = w :: rest) :
    accept s = Claims.accepted s rest := by
  simp [accept, h]

theorem acceptable_of_accepts {s : State} {w : CmdWord} {rest : List CmdWord} (h : Claims.Accepts s w rest) :
    acceptable s = some w := by
  obtain ⟨-, hbusy, hstate, hcmd⟩ := h
  simp [acceptable, cmdReady, hbusy, hstate, hcmd]

theorem acceptable_none {s : State} (h : s.control.busy = true ∨ s.control.lstate = .faulted ∨ s.inputs.cmd = []) :
    acceptable s = none := by
  rcases h with h | h | h <;> simp [acceptable, cmdReady, h]

theorem step_of_acceptable_none {s : State} (hr : s.inputs.rst = none) (ha : acceptable s = none) :
    step s = .next s := by
  simp [step, hr, ha]

theorem step_of_decode_ok {s : State} {w : CmdWord} {i : Instr} (hr : s.inputs.rst = none)
    (ha : acceptable s = some w) (hd : decode w = .ok i) : step s = exec i (accept s) := by
  simp [step, hr, ha, hd]

/-- Settles O4: a word that meets `Accepts` is the one the port accepts. -/
theorem stepRunsDecodedCommand : Obligations.StepRunsDecodedCommand := by
  intro s w rest i h hd
  have ha := acceptable_of_accepts h
  obtain ⟨hrst, -, -, hcmd⟩ := h
  rw [step_of_decode_ok hrst ha hd, accept_eq_accepted hcmd]

theorem decode_of_decodeTableWord {nbits w : Nat} {i : Instr} (h : decodeTableWord nbits w = some i) :
    decode (BitVec.ofNat 8 (w % 2 ^ nbits)) = .ok i := by
  unfold decodeTableWord at h
  split at h
  next j hj => exact hj.trans (congrArg _ (Option.some.inj h))
  next => contradiction

/-- Settles O5: `withFetchWord` makes a state that accepts the word. -/
theorem fetchWordRunsNext : Obligations.FetchWordRunsNext := by
  intro s nbits w i hbusy hstate hd
  exact stepRunsDecodedCommand (s.withFetchWord nbits w) _ s.inputs.cmd i ⟨rfl, hbusy, hstate, rfl⟩
    (decode_of_decodeTableWord hd)

/-- Settles O6: in each of the three cases the port accepts nothing. -/
theorem unreadyPortWaits : Obligations.UnreadyPortWaits := fun _ hr hwait =>
  step_of_acceptable_none hr (acceptable_none hwait)

/-! ### The reset values -/

/-- Settles O10: the table of R42, read off `State.resetWith`. -/
theorem resetValues : Obligations.ResetValues := ⟨rfl, rfl, rfl, rfl, rfl, rfl, rfl⟩

/-! ### `STATUS`, one lemma a field (R32) -/

theorem statusWord_busy (s : State) : (statusWord s).getLsbD 0 = s.control.busy := by
  rw [statusWord, BitVec.getLsbD_append]
  simp

theorem statusWord_lstate (s : State) : (statusWord s).extractLsb' 1 2 = lstateCode s.control.lstate := by
  rw [statusWord, BitVec.extractLsb'_append_eq_of_le (by decide)]
  exact BitVec.extractLsb'_append_eq_right

theorem statusWord_faultCode (s : State) : (statusWord s).extractLsb' 3 4 = faultCodeBits s.control.faultCode := by
  rw [statusWord]
  iterate 2 rw [BitVec.extractLsb'_append_eq_of_le (by decide)]
  exact BitVec.extractLsb'_append_eq_right

theorem statusWord_lastWrap (s : State) : (statusWord s).extractLsb' 7 2 = wrapCode s.control.lastWrap := by
  rw [statusWord]
  iterate 3 rw [BitVec.extractLsb'_append_eq_of_le (by decide)]
  exact BitVec.extractLsb'_append_eq_right

theorem statusWord_natDir (s : State) : (statusWord s).extractLsb' 9 1 = s.tracker.natDir := by
  rw [statusWord]
  iterate 4 rw [BitVec.extractLsb'_append_eq_of_le (by decide)]
  exact BitVec.extractLsb'_append_eq_right

theorem statusWord_rspValid (s : State) : (statusWord s).getLsbD 10 = s.response.valid := by
  rw [statusWord]
  iterate 5 rw [BitVec.getLsbD_append, if_neg (by decide)]
  rw [BitVec.getLsbD_append]
  simp

theorem statusWord_reserved (s : State) : (statusWord s).extractLsb' 11 5 = 0#5 := by
  rw [statusWord]
  iterate 6 rw [BitVec.extractLsb'_append_eq_of_le (by decide)]
  rfl

/-- Settles O46: each field of `statusWord`, and its code. -/
theorem statusFields : Obligations.StatusFields := by
  intro s w
  refine ⟨statusWord_busy s, (statusWord_lstate s).trans ?_, (statusWord_faultCode s).trans ?_,
    (statusWord_lastWrap s).trans ?_, statusWord_natDir s, statusWord_rspValid s, statusWord_reserved s⟩
  · cases s.control.lstate <;> rfl
  · cases s.control.faultCode <;> rfl
  · cases s.control.lastWrap <;> rfl

end Sys2Proof.Machine
end

section
/-! The serial frame and the transactions of each command (spec/20_memory.md R61, R64). -/
namespace Sys2Proof.Machine

open Sys2Proof

/-! ### The order of the samples in the frame (R61) -/

/-- `n` samples move each bit of the frame `n` places up. -/
theorem shiftDraws_getLsbD_add (n : Nat) (q : Inputs) (f : Frame) {j : Nat} (hj : j + n < 18) :
    (shiftDraws q n f).getLsbD (j + n) = f.getLsbD j := by
  induction n generalizing q f j with
  | zero => rfl
  | succ n ih =>
    rw [shiftDraws, show j + (n + 1) = (j + 1) + n by omega, ih _ _ (by omega), shiftIn_getLsbD_succ f _ j (by omega)]

/-- Of `n` samples the `i`-th is moved up by the `n - 1 - i` after it. -/
theorem shiftDraws_getLsbD_sample {n i : Nat} (q : Inputs) (f : Frame) (hn : n ≤ 18) (hi : i < n) :
    (shiftDraws q n f).getLsbD (n - 1 - i) = (dataDraw q i).getLsbD 0 := by
  induction n generalizing q f i with
  | zero => exact absurd hi (Nat.not_lt_zero i)
  | succ n ih =>
    cases i with
    | zero =>
      have hmoved := shiftDraws_getLsbD_add n (takeData q) (shiftIn f (dataDraw q 0)) (j := 0) (by omega)
      rw [Nat.zero_add, shiftIn_getLsbD_zero] at hmoved
      exact hmoved
    | succ i =>
      rw [shiftDraws, show n + 1 - 1 - (i + 1) = n - 1 - i by omega, ih _ _ (by omega) (by omega), dataDraw_takeData]

/-- Settles O12: of the 18 samples the `i`-th is moved up by the `17 - i` after it. -/
theorem frameShiftsInMsbFirst : Obligations.FrameShiftsInMsbFirst := by
  intro s i hi
  rw [ssiTransaction_eq]
  exact shiftDraws_getLsbD_sample s.inputs 0 (Nat.le_refl 18) hi

/-! ### The pin events of one transaction (R102) -/

theorem pinTrace_transactionEvents_length (c : Config) (q : Inputs) :
    (pinTrace (transactionEvents c q)).length = 58 := rfl

/-- The one sample of a round of the loop, whatever its level. -/
theorem filter_sample_round (b : Level) :
    [PinEvent.clk 1, PinEvent.sample b, PinEvent.clk 0].filter (fun e => e = .sample 0 ∨ e = .sample 1) =
      [PinEvent.sample b] := by
  have hb : b = 0 ∨ b = 1 := by
    have := level_le_one b
    bv_omega
  rcases hb with rfl | rfl <;> rfl

theorem pinTrace_transactionEvents_samples (c : Config) (q : Inputs) :
    ((pinTrace (transactionEvents c q)).filter (fun e => e = .sample 0 ∨ e = .sample 1)).length = 18 := by
  rw [pinTrace_transactionEvents, List.filter_append, List.filter_append, List.filter_flatMap]
  simp only [filter_sample_round]
  rfl

theorem pinTrace_transact (s : State) :
    pinTrace (transact s).trace = pinTrace s.trace ++ pinTrace (transactionEvents s.cfg s.inputs) := by
  rw [transact_trace, pinTrace_append]
  rfl

/-! ### The pin trace of each command (R64) -/

/-- The command `i` performs a transaction (R64). -/
abbrev Transacts (i : Instr) : Prop :=
  i = .init ∨ i = .getAngle ∨ i = .getVelocity ∨ i = .calRelZero ∨ i = .readFrame

/-- An angle update adds its transaction to the pin trace, overflow or not, where the rest of the command drives no
pin. -/
theorem pinTrace_withAngleUpdate (i : Instr) {rest : AngleStep → State → State} (s : State)
    (hrest : ∀ u v, (rest u v).trace = v.trace) :
    pinTrace (withAngleUpdate i rest s).trace =
      pinTrace s.trace ++ pinTrace (transactionEvents s.cfg s.inputs) := by
  rw [← pinTrace_transact]
  rcases withAngleUpdate_cases i rest s with ⟨-, he⟩ | ⟨-, he⟩ <;> rw [he]
  · rw [hrest, writeAngle_trace]
  · rw [raiseFault_trace]

@[simp] theorem configureLines_cfg (s : State) : (configureLines s).cfg = s.cfg := rfl
@[simp] theorem configureLines_trace (s : State) : (configureLines s).trace =
    s.trace ++ [PinEvent.cs (~~~ s.cfg.csActive)] ++ [PinEvent.csMode .output] ++ [PinEvent.clk 1] ++
      [PinEvent.clkMode .output] := rfl

theorem pinTrace_configureLines (s : State) :
    pinTrace (configureLines s).trace = pinTrace s.trace ++ [PinEvent.cs (~~~ s.cfg.csActive), PinEvent.clk 1] := by
  rw [configureLines_trace, List.append_assoc, List.append_assoc, List.append_assoc, pinTrace_append]
  rfl

theorem initBody_trace (s : State) : (initBody s).trace = (transact (configureLines s)).trace :=
  (respond_trace ..).trans ((seedTracker_trace ..).trans (takeNow_trace _))

theorem readFrameBody_trace (s : State) : (readFrameBody s).trace = (transact s).trace := respond_trace ..

theorem pinTrace_initBody (s : State) :
    pinTrace (initBody s).trace = pinTrace s.trace ++ [PinEvent.cs (~~~ s.cfg.csActive), PinEvent.clk 1] ++
      pinTrace (transactionEvents s.cfg (configureLines s).inputs) := by
  rw [initBody_trace, pinTrace_transact, pinTrace_configureLines, configureLines_cfg]

/-- The transaction of `GET_VELOCITY` comes after its reading of the time (R148). -/
theorem pinTrace_getVelocityBody (s : State) :
    pinTrace (getVelocityBody s).trace = pinTrace s.trace ++ pinTrace (transactionEvents s.cfg (takeNow s).inputs) := by
  rw [getVelocityBody_eq, pinTrace_withAngleUpdate .getVelocity (takeNow s) (by intros; rfl), takeNow_trace,
    takeNow_cfg]

/-- A command other than `INIT` that transacts adds its transaction alone. -/
theorem pinTrace_commandBody_of_transacts {i : Instr} (hi : Transacts i) (hinit : i ≠ .init) (s : State) :
    ∃ q, pinTrace (commandBody i s).trace = pinTrace s.trace ++ pinTrace (transactionEvents s.cfg q) := by
  rcases hi.resolve_left hinit with rfl | rfl | rfl | rfl
  · exact ⟨s.inputs, pinTrace_withAngleUpdate .getAngle (rest := answerAngle) s fun _ _ => rfl⟩
  · exact ⟨(takeNow s).inputs, pinTrace_getVelocityBody s⟩
  · exact ⟨s.inputs, pinTrace_withAngleUpdate .calRelZero (rest := answerRelZero) s fun _ _ => rfl⟩
  · exact ⟨s.inputs, (congrArg pinTrace (readFrameBody_trace s)).trans (pinTrace_transact s)⟩

/-- A command that does not transact drives no level and samples none; `CLOSE` changes the modes of the lines. -/
theorem pinTrace_commandBody_of_not_transacts {i : Instr} (hi : ¬ Transacts i) (s : State) :
    pinTrace (commandBody i s).trace = pinTrace s.trace := by
  cases i with
  | init | getAngle | getVelocity | calRelZero | readFrame => simp at hi
  | close => simp [commandBody, closeBody, pinTrace, isPinEvent]
  | calAbsZero | hasAbsZero | needsAbsSearch | setDir => rfl

/-- The legality of the claims is the one `exec` checks (R202). -/
theorem legalIn_of_legal {i : Instr} {s : State} (h : Claims.Legal i s) : legalIn i s.control.lstate = true := by
  obtain ⟨hstate, hready⟩ := h
  cases i with
  | init | hasAbsZero | needsAbsSearch | close | setDir => simpa [legalIn] using hstate
  | getAngle | getVelocity | calRelZero | calAbsZero | readFrame => simpa [legalIn, Claims.needsReady] using hready

theorem exec_of_legal {i : Instr} {s : State} (h : Claims.Legal i s) : exec i s = .next (commandBody i s) := by
  rw [exec_eq_runLegal, runLegal_legal _ h.1 (legalIn_of_legal h)]

/-- Settles O39: a legal command is its body, which adds one transaction or no pin event. -/
theorem transactionsPerCommand : Obligations.TransactionsPerCommand := by
  intro i s t hlegal h
  obtain rfl : commandBody i s = t := Host.Outcome.next.inj ((exec_of_legal hlegal).symm.trans h)
  by_cases hi : Transacts i
  · rw [if_pos hi]
    by_cases hinit : i = .init
    · subst hinit
      exact ⟨_, pinTrace_transactionEvents_length _ _, pinTrace_transactionEvents_samples _ _, pinTrace_initBody s⟩
    · obtain ⟨q, hq⟩ := pinTrace_commandBody_of_transacts hi hinit s
      rw [if_neg hinit, List.append_nil]
      exact ⟨_, pinTrace_transactionEvents_length s.cfg q, pinTrace_transactionEvents_samples s.cfg q, hq⟩
  · rw [if_neg hi]
    exact pinTrace_commandBody_of_not_transacts hi s

end Sys2Proof.Machine
end

section
/-! The decoder and the encoder of command words, and which words are illegal (spec/30_encoding.md R81 to R88). -/
namespace Sys2Proof

/-! ### A word and its fields (R81) -/

@[simp] theorem fieldsOf_wordOf (f : CommandFields) : fieldsOf (wordOf f) = f := by
  obtain ⟨rsv, arg, op⟩ := f
  have hrsv : (rsv ++ arg ++ op).extractLsb' 5 3 = rsv := by
    rw [BitVec.extractLsb'_append_eq_of_le (by decide)]
    exact BitVec.extractLsb'_append_eq_left
  have harg : (rsv ++ arg ++ op).extractLsb' 4 1 = arg := by
    rw [BitVec.extractLsb'_append_eq_of_le (by decide)]
    exact BitVec.extractLsb'_append_eq_right
  have hop : (rsv ++ arg ++ op).extractLsb' 0 4 = op := BitVec.extractLsb'_append_eq_right
  simp only [fieldsOf, wordOf, hrsv, harg, hop]

@[simp] theorem wordOf_fieldsOf (w : CmdWord) : wordOf (fieldsOf w) = w := by
  have hhigh : w.extractLsb' 5 3 ++ w.extractLsb' 4 1 = w.extractLsb' 4 4 :=
    BitVec.extractLsb'_append_extractLsb'_eq_extractLsb' rfl
  have hword : w.extractLsb' 4 4 ++ w.extractLsb' 0 4 = w.extractLsb' 0 8 :=
    BitVec.extractLsb'_append_extractLsb'_eq_extractLsb' rfl
  simp only [wordOf, fieldsOf, hhigh, hword, BitVec.extractLsb'_eq_self]

theorem wordOf_toNat (f : CommandFields) :
    (wordOf f).toNat = 32 * f.rsv.toNat + 16 * f.arg.toNat + f.op.toNat := by
  rw [wordOf, BitVec.toNat_append, BitVec.toNat_append, ← Nat.shiftLeft_add_eq_or_of_lt f.op.isLt,
    ← Nat.shiftLeft_add_eq_or_of_lt f.arg.isLt, Nat.shiftLeft_eq, Nat.shiftLeft_eq]
  omega

/-! ### The three conditions of a legal word (R84) -/

namespace CommandFields

theorem rsvOk_iff (f : CommandFields) : f.rsvOk = true ↔ f.rsv = 0 := beq_iff_eq

theorem opOk_iff (f : CommandFields) : f.opOk = true ↔ 1 ≤ f.op.toNat ∧ f.op.toNat ≤ 10 := by
  simp [opOk, BitVec.le_def]

theorem argOk_iff (f : CommandFields) : f.argOk = true ↔ f.arg = 0 ∨ f.op = 9 := by
  simp [argOk]

theorem wellFormed_iff (f : CommandFields) :
    f.wellFormed = true ↔ f.rsvOk = true ∧ f.opOk = true ∧ f.argOk = true := by
  rw [wellFormed, Bool.and_eq_true, Bool.and_eq_true, and_assoc]

/-- `argOk` is the negation of the last test of `decode` (R85). -/
theorem argOk_iff_not_stray (f : CommandFields) : f.argOk = true ↔ ¬ (f.arg = 1 ∧ f.op ≠ 9) := by
  have harg : f.arg = 0 ↔ ¬ f.arg = 1 := by bv_omega
  rw [argOk_iff, harg, not_and, not_not, imp_iff_not_or]

/-- R84, the other way round. -/
theorem not_wellFormed_iff (f : CommandFields) :
    ¬ f.wellFormed = true ↔ f.rsv ≠ 0 ∨ f.op = 0 ∨ 11 ≤ f.op.toNat ∨ (f.arg = 1 ∧ f.op ≠ 9) := by
  have hop : ¬ f.opOk = true ↔ f.op = 0 ∨ 11 ≤ f.op.toNat := by
    rw [opOk_iff]
    bv_omega
  rw [wellFormed_iff, not_and_or, not_and_or, rsvOk_iff, hop, argOk_iff_not_stray, not_not, or_assoc]

/-- The legal words as numbers (R83). -/
theorem wellFormed_iff_toNat (f : CommandFields) :
    f.wellFormed = true ↔ (1 ≤ (wordOf f).toNat ∧ (wordOf f).toNat ≤ 10) ∨ (wordOf f).toNat = 0x19 := by
  have hrsv : f.rsv = 0 ↔ f.rsv.toNat = 0 := BitVec.toNat_inj.symm
  have harg : f.arg = 0 ↔ f.arg.toNat = 0 := BitVec.toNat_inj.symm
  have hop : f.op = 9 ↔ f.op.toNat = 9 := BitVec.toNat_inj.symm
  have hargLt := f.arg.isLt
  have hopLt := f.op.isLt
  rw [wellFormed_iff, rsvOk_iff, opOk_iff, argOk_iff, hrsv, harg, hop, wordOf_toNat]
  omega

end CommandFields

theorem instrFields_wellFormed (i : Instr) : (instrFields i).wellFormed = true := by
  cases i with
  | init => exact Laws.WordWellFormed.init
  | getAngle => exact Laws.WordWellFormed.getAngle
  | getVelocity => exact Laws.WordWellFormed.getVelocity
  | calRelZero => exact Laws.WordWellFormed.calRelZero
  | calAbsZero => exact Laws.WordWellFormed.calAbsZero
  | hasAbsZero => exact Laws.WordWellFormed.hasAbsZero
  | needsAbsSearch => exact Laws.WordWellFormed.needsAbsSearch
  | close => exact Laws.WordWellFormed.close
  | setDir a => exact Laws.WordWellFormed.setDir a
  | readFrame => exact Laws.WordWellFormed.readFrame

/-! ### The opcode table (R83) -/

theorem ofOpcode_opcodeOf (i : Instr) : ofOpcode (opcodeOf i) (argOf i) = some i := by
  cases i <;> rfl

theorem opcodeOf_of_ofOpcode {op : OpCode} {arg : BitVec 1} {i : Instr} (h : ofOpcode op arg = some i) :
    opcodeOf i = op := by
  unfold ofOpcode at h
  split_ifs at h <;> obtain rfl := Option.some.inj h <;> symm <;> assumption

/-- Only `SET_DIR` has an operand (R82). -/
theorem argOf_of_ofOpcode {i : Instr} {arg : BitVec 1} (h : ofOpcode (opcodeOf i) arg = some i)
    (harg : arg = 0 ∨ opcodeOf i = 9) : argOf i = arg := by
  cases i with
  | setDir a => exact (Instr.setDir.inj (Option.some.inj h)).symm
  | _ => exact (harg.resolve_right (by decide)).symm

theorem exists_ofOpcode_iff_opOk (f : CommandFields) : (∃ i, ofOpcode f.op f.arg = some i) ↔ f.opOk = true := by
  obtain ⟨rsv, arg, op⟩ := f
  have htable : ∀ op arg, (ofOpcode op arg).isSome = (1#4 ≤ op && op ≤ 0xA#4) := by decide
  rw [← Option.isSome_iff_exists, htable, CommandFields.opOk]

/-! ### Decoding (R85, R88) -/

/-- A word decodes to the command of its opcode when the other two fields pass their tests (R85). -/
theorem decode_eq_ok_iff (w : CmdWord) (i : Instr) :
    decode w = .ok i ↔
      (fieldsOf w).rsvOk = true ∧ ofOpcode (fieldsOf w).op (fieldsOf w).arg = some i ∧ (fieldsOf w).argOk = true := by
  rw [CommandFields.rsvOk_iff, CommandFields.argOk_iff_not_stray, decode]
  by_cases hrsv : (fieldsOf w).rsv = 0
  · rw [if_neg (not_not.mpr hrsv)]
    cases hop : ofOpcode (fieldsOf w).op (fieldsOf w).arg with
    | none => exact iff_of_false nofun nofun
    | some j =>
      dsimp only
      by_cases hstray : (fieldsOf w).arg = 1 ∧ (fieldsOf w).op ≠ 9
      · rw [if_pos hstray]
        exact iff_of_false nofun fun ⟨_, _, hnot⟩ => hnot hstray
      · rw [if_neg hstray, Except.ok.injEq, Option.some.injEq]
        exact ⟨fun h => ⟨hrsv, h, hstray⟩, fun ⟨_, h, _⟩ => h⟩
  · rw [if_pos hrsv]
    exact iff_of_false nofun fun ⟨h, _⟩ => hrsv h

theorem decode_encode (i : Instr) : decode (encode i) = .ok i := by
  obtain ⟨hrsv, -, harg⟩ := (CommandFields.wellFormed_iff _).mp (instrFields_wellFormed i)
  rw [decode_eq_ok_iff, encode, fieldsOf_wordOf]
  exact ⟨hrsv, ofOpcode_opcodeOf i, harg⟩

theorem instrFields_of_decode {w : CmdWord} {i : Instr} (h : decode w = .ok i) : instrFields i = fieldsOf w := by
  obtain ⟨hrsv, hop, harg⟩ := (decode_eq_ok_iff w i).mp h
  have hopcode := opcodeOf_of_ofOpcode hop
  rw [CommandFields.rsvOk_iff] at hrsv
  rw [CommandFields.argOk_iff, ← hopcode] at harg
  rw [← hopcode] at hop
  rw [instrFields, argOf_of_ofOpcode hop harg, hopcode, ← hrsv]

theorem eq_encode_of_decode {w : CmdWord} {i : Instr} (h : decode w = .ok i) : w = encode i := by
  rw [encode, instrFields_of_decode h, wordOf_fieldsOf]

/-- Settles O2: a word is determined by its fields, and the fields of a word that decodes are those of its command. -/
theorem decodeEncodeAgree : Obligations.DecodeEncodeAgree :=
  fun i => ⟨decode_encode i, fun _ => eq_encode_of_decode⟩

/-- Settles O1: the word of each command, written out, decodes to it. -/
theorem legalWordsDecodeAsWritten : Obligations.LegalWordsDecodeAsWritten :=
  ⟨decode_encode .init, decode_encode .getAngle, decode_encode .getVelocity, decode_encode .calRelZero,
    decode_encode .calAbsZero, decode_encode .hasAbsZero, decode_encode .needsAbsSearch, decode_encode .close,
    decode_encode (.setDir 0), decode_encode (.setDir 1), decode_encode .readFrame⟩

/-! ### Illegal words (R84, R201) -/

/-- The decoder accepts the words whose fields meet R84. -/
theorem exists_decode_iff_wellFormed (w : CmdWord) :
    (∃ i, decode w = .ok i) ↔ (fieldsOf w).wellFormed = true := by
  simp only [decode_eq_ok_iff, exists_and_left, exists_and_right, exists_ofOpcode_iff_opOk,
    CommandFields.wellFormed_iff]

theorem decode_ne_ok_iff (w : CmdWord) : (∀ i, decode w ≠ .ok i) ↔ ¬ (fieldsOf w).wellFormed = true := by
  rw [← exists_decode_iff_wellFormed, not_exists]

end Sys2Proof

namespace Sys2Proof.Machine

open Sys2Proof

/-- The step that accepts a word that decodes to no command raises `ILLEGAL_CMD` (R201). -/
theorem step_of_decode_ne_ok {s : State} {w : CmdWord} (hr : s.inputs.rst = none)
    (ha : acceptable s = some w) (hd : ∀ i, decode w ≠ .ok i) :
    step s = .next (raiseFault .illegalCmd w (accept s)) := by
  cases h : decode w with
  | ok i => exact absurd h (hd i)
  | error e => simp [step, hr, ha, h]

/-- Settles O3: `decode` refuses exactly what `wellFormed` does, and the step raises the fault over the accepted state. -/
theorem illegalWordsRaiseIllegalCmd : Obligations.IllegalWordsRaiseIllegalCmd := by
  refine ⟨fun w => ?_, fun w => ?_, fun s w rest h hd => ?_⟩
  · exact (decode_ne_ok_iff w).trans (CommandFields.not_wellFormed_iff (fieldsOf w))
  · rw [exists_decode_iff_wellFormed, CommandFields.wellFormed_iff_toNat, wordOf_fieldsOf]
  · have ha := acceptable_of_accepts h
    obtain ⟨hrst, -, -, hcmd⟩ := h
    rw [step_of_decode_ne_ok hrst ha hd, accept_eq_accepted hcmd]
    rfl

end Sys2Proof.Machine
end

section
/-! Calibration, the capability flags and the direction (spec/42_calibration.md), over the claims' own account of a
transaction and of an angle update. -/
namespace Sys2Proof.Machine

open Sys2Proof

/-! ### A transaction and an angle update as the claims write them -/

theorem csEndLevel_eq_endLevel (c : Config) : csEndLevel c = Claims.endLevel c := by
  cases h : c.csEndMode <;> simp [csEndLevel, Claims.endLevel, h]

theorem shiftedFrame_eq_ofNat (q : Inputs) : shiftedFrame q = BitVec.ofNat 18 (drawnFrame q) := by
  rw [← shiftedFrame_toNat, BitVec.ofNat_toNat, BitVec.setWidth_eq]

theorem extract_shiftedFrame (q : Inputs) : extract (shiftedFrame q) = BitVec.ofNat 12 (drawnRaw q) := by
  rw [← extract_shiftedFrame_toNat, BitVec.ofNat_toNat, BitVec.setWidth_eq]

theorem drawnRaw_ofNat_toNat (q : Inputs) : (BitVec.ofNat 12 (drawnRaw q)).toNat = drawnRaw q := by
  rw [← extract_shiftedFrame, extract_shiftedFrame_toNat]

theorem drawnRaw_setWidth (q : Inputs) :
    (BitVec.ofNat 12 (drawnRaw q)).setWidth 32 = BitVec.ofNat 32 (drawnRaw q) := by
  rw [← BitVec.ofNat_toNat, drawnRaw_ofNat_toNat]

/-- A transaction leaves the state the claims give (R101, R258). -/
theorem transact_eq_afterFrame (s : State) : transact s = Claims.afterFrame s := by
  rw [transact_eq, csEndLevel_eq_endLevel, shiftedFrame_eq_ofNat]
  simp [Claims.afterFrame]

theorem wrapTurns_wrapOf (d : Int) : wrapTurns (wrapOf d) = Claims.turnsOf d := by
  rw [wrapOf_eq, apply_ite wrapTurns, apply_ite wrapTurns]
  rfl

/-- The values of the angle update over the next sample, in the terms of the claims. -/
def drawnStep (s : State) : AngleStep where
  raw := BitVec.ofNat 12 (drawnRaw s.inputs)
  wrap := Claims.wrapFieldOf (Claims.drawnDelta s)
  turns := Claims.newTurns s
  angle := Claims.newAngle s

/-- They are the values the model computes from the frame (R136 to R140). -/
theorem angleStep_eq_drawnStep (s : State) : angleStep s.tracker (shiftedFrame s.inputs) = drawnStep s := by
  have hdelta : sampleDelta (BitVec.ofNat 12 (drawnRaw s.inputs)) s.tracker.prevRaw = Claims.drawnDelta s := by
    rw [sampleDelta, drawnRaw_ofNat_toNat]
  rw [angleStep, extract_shiftedFrame, hdelta, wrapTurns_wrapOf, wrapOf_eq, angleCounts, drawnRaw_ofNat_toNat]
  rfl

theorem writeAngle_drawnStep (s : State) : writeAngle (drawnStep s) (transact s) = Claims.afterUpdate s := by
  rw [transact_eq_afterFrame]
  rfl

theorem fitsSigned_newTurns_iff (s : State) :
    FitsSigned s.cfg.turnBits (Claims.newTurns s) ↔ Claims.TurnsInRange s := by
  simp only [FitsSigned, Claims.TurnsInRange, Nat.cast_pow, Nat.cast_ofNat]

/-- Where the turn count stays in range, the command goes on from the registers of the update (R139). -/
theorem withAngleUpdate_of_inRange (i : Instr) (rest : AngleStep → State → State) {s : State}
    (h : Claims.TurnsInRange s) : withAngleUpdate i rest s = rest (drawnStep s) (Claims.afterUpdate s) := by
  rcases withAngleUpdate_cases i rest s with ⟨-, he⟩ | ⟨hn, -⟩
  · rw [he, angleStep_eq_drawnStep, writeAngle_drawnStep]
  · rw [angleStep_eq_drawnStep] at hn
    exact absurd ((fitsSigned_newTurns_iff s).mpr h) hn

/-- Where it does not, the command ends in `TURN_OVERFLOW` over the transaction alone (R134, R203). -/
theorem withAngleUpdate_of_not_inRange (i : Instr) (rest : AngleStep → State → State) {s : State}
    (h : ¬ Claims.TurnsInRange s) :
    withAngleUpdate i rest s = Claims.faulted .turnOverflow (encode i) (Claims.afterFrame s) := by
  rcases withAngleUpdate_cases i rest s with ⟨hf, -⟩ | ⟨-, he⟩
  · rw [angleStep_eq_drawnStep] at hf
    exact absurd ((fitsSigned_newTurns_iff s).mp hf) h
  · rw [he, transact_eq_afterFrame]
    rfl

/-! ### How a command answers -/

theorem legal_of_ready (i : Instr) {s : State} (h : s.control.lstate = .ready) : Claims.Legal i s :=
  ⟨by rw [h]; nofun, fun _ => h⟩

theorem legal_of_not_needsReady {i : Instr} {s : State} (hi : ¬ Claims.needsReady i)
    (h : s.control.lstate ≠ .faulted) : Claims.Legal i s :=
  ⟨h, fun hn => absurd hn hi⟩

/-- A command that needs `READY` raises `NOT_READY` in `UNINIT` and in `CLOSED` (R202, R205). -/
theorem exec_notReady {i : Instr} {s : State} (hi : Claims.needsReady i)
    (h : s.control.lstate = .uninit ∨ s.control.lstate = .closed) :
    exec i s = .next (Claims.faulted .notReady (encode i) s) := by
  have hstate : s.control.lstate ≠ .faulted := by rcases h with h | h <;> rw [h] <;> nofun
  have hillegal : legalIn i s.control.lstate = false := by
    rcases hi with rfl | rfl | rfl | rfl | rfl <;> rcases h with h | h <;> rw [h] <;> rfl
  exact (exec_eq_runLegal i s).trans (runLegal_illegal _ hstate hillegal)

theorem commandBody_getAngle : commandBody .getAngle = withAngleUpdate .getAngle answerAngle := rfl

theorem commandBody_calRelZero : commandBody .calRelZero = withAngleUpdate .calRelZero answerRelZero := rfl

section angleUpdate

variable {i : Instr} {rest : AngleStep → State → State} {s : State}

/-- In `READY` a command that is an angle update and a rest completes where the turn count stays in range (R139). -/
theorem exec_angleUpdate_of_inRange (hi : commandBody i = withAngleUpdate i rest) (hs : s.control.lstate = .ready)
    (h : Claims.TurnsInRange s) : exec i s = .next (rest (drawnStep s) (Claims.afterUpdate s)) := by
  rw [exec_of_legal (legal_of_ready i hs), hi, withAngleUpdate_of_inRange i rest h]

/-- Where it does not, the command raises `TURN_OVERFLOW` (R203). -/
theorem exec_angleUpdate_of_not_inRange (hi : commandBody i = withAngleUpdate i rest)
    (hs : s.control.lstate = .ready) (h : ¬ Claims.TurnsInRange s) :
    exec i s = .next (Claims.faulted .turnOverflow (encode i) (Claims.afterFrame s)) := by
  rw [exec_of_legal (legal_of_ready i hs), hi, withAngleUpdate_of_not_inRange i rest h]

end angleUpdate

theorem sameRegisters_refl (s : State) : Claims.SameRegisters s s :=
  ⟨rfl, rfl, rfl, rfl, rfl, rfl, rfl, rfl, rfl⟩

/-- A command whose next state is known exactly yields its registers. -/
theorem yields_of_exec {i : Instr} {s t : State} (h : exec i s = .next t) : Claims.Yields i s t :=
  ⟨t, h, sameRegisters_refl t⟩

/-! ### The relative zero (R172, R173) -/

/-- The tracker a completing `CAL_REL_ZERO` leaves; `answerRelZero_drawnStep` ties it to the model. -/
abbrev relZeroTracker (s : State) : Tracker :=
  { s.tracker with
    prevRaw := BitVec.ofNat 12 (drawnRaw s.inputs)
    zeroOfs := Claims.dirOf s.tracker.natDir * drawnRaw s.inputs
    turns := 0 }

/-- The state a completing `CAL_REL_ZERO` leaves (R172). -/
theorem answerRelZero_drawnStep (s : State) :
    answerRelZero (drawnStep s) (Claims.afterUpdate s) =
      Claims.answered 0x4 (-Claims.newAngle s) (BitVec.ofNat 32 (drawnRaw s.inputs)) (some (.rad (-Claims.newAngle s)))
        { Claims.afterUpdate s with tracker := relZeroTracker s } := by
  simp only [answerRelZero, drawnStep, drawnRaw_setWidth, drawnRaw_ofNat_toNat]
  rfl

/-- Settles O22: the new zero over the angle update, or one of the two faults. -/
theorem calRelZeroRezeroes : Obligations.CalRelZeroRezeroes := by
  refine ⟨rfl, fun s hs h => yields_of_exec ?_, fun s hs h => yields_of_exec ?_, fun s hs => yields_of_exec ?_⟩
  · rw [exec_angleUpdate_of_inRange commandBody_calRelZero hs h, answerRelZero_drawnStep]
  · exact exec_angleUpdate_of_not_inRange commandBody_calRelZero hs h
  · exact exec_notReady (.inr (.inr (.inl rfl))) hs

/-- A `CAL_REL_ZERO` that stays in `READY` had its turn count in range. -/
theorem exec_calRelZero_completed {s t : State} (hs : s.control.lstate = .ready) (h : exec .calRelZero s = .next t)
    (ht : t.control.lstate = .ready) : t = answerRelZero (drawnStep s) (Claims.afterUpdate s) := by
  by_cases hr : Claims.TurnsInRange s
  · exact Host.Outcome.next.inj (h.symm.trans (exec_angleUpdate_of_inRange commandBody_calRelZero hs hr))
  · rw [exec_angleUpdate_of_not_inRange commandBody_calRelZero hs hr] at h
    cases h
    cases ht

/-- 0 is in the range of every turn counter (R134). -/
theorem turnsInRange_of_newTurns_eq_zero {s : State} (h : Claims.newTurns s = 0) : Claims.TurnsInRange s := by
  rw [← fitsSigned_newTurns_iff, h]
  exact fitsSigned_zero _

/-- The angle of the position `r` from its own relative zero, whose offset is `dir * r` (R173). -/
theorem dirOf_mul_sub_dirOf_mul (d : BitVec 1) (r : Int) :
    Claims.dirOf d * (r - Claims.dirOf d * r) = if d = 0 then 0 else -2 * r := by
  by_cases hd : d = 0 <;> simp only [Claims.dirOf, hd, if_true, if_false] <;> ring

/-- Settles O43: the same sample again is no motion, so only the new offset is left in the angle. -/
theorem relativeZeroRoundTrip : Obligations.RelativeZeroRoundTrip := by
  intro s t u hs hcal ht hget hraw
  have htracker : t.tracker = relZeroTracker s := by
    rw [exec_calRelZero_completed hs hcal ht, answerRelZero_drawnStep]
  have hdelta : Claims.drawnDelta t = 0 := by
    rw [Claims.drawnDelta, hraw, htracker, drawnRaw_ofNat_toNat, sub_self]
  have hturns : Claims.newTurns t = 0 := by
    rw [Claims.newTurns, hdelta, htracker]
    rfl
  have hangle : Claims.newAngle t = if s.tracker.natDir = 0 then 0 else -2 * (drawnRaw s.inputs : Int) := by
    rw [Claims.newAngle, hturns, hraw, htracker, zero_mul, zero_add, dirOf_mul_sub_dirOf_mul]
  have hwrap : Claims.wrapFieldOf (Claims.drawnDelta t) = .noWrap := by
    rw [hdelta]
    rfl
  rw [exec_angleUpdate_of_inRange commandBody_getAngle ht (turnsInRange_of_newTurns_eq_zero hturns)] at hget
  cases hget
  exact ⟨hdelta, hturns, hwrap, rfl, hangle⟩

/-! ### The sensor's zero, the capability flags and the direction (R175 to R185) -/

theorem applyRetSign_eq (g : RetSign) (v : Int) : applyRetSign g v = if g = .plus then v else -v := by
  cases g <;> rfl

/-- Settles O23: the offset goes back to 0 with no transaction, and the old one is the answer. -/
theorem calAbsZeroRestoresZero : Obligations.CalAbsZeroRestoresZero := by
  refine ⟨rfl, fun s hs => ?_, fun s hs => exec_notReady (.inr (.inr (.inr (.inl rfl)))) hs⟩
  rw [exec_of_legal (legal_of_ready _ hs), commandBody, calAbsZeroBody, applyRetSign_eq]
  rfl

/-- Settles O24: the two queries are legal outside `FAULTED` and answer the constants of R39. -/
theorem capabilityFlagsAreConstant : Obligations.CapabilityFlagsAreConstant :=
  ⟨rfl, rfl, fun _ hs =>
    ⟨exec_of_legal (legal_of_not_needsReady (by decide) hs), exec_of_legal (legal_of_not_needsReady (by decide) hs)⟩⟩

/-- Settles O26: `SET_DIR` is legal outside `FAULTED`, and its sign is `dirSign` of the operand. -/
theorem setDirWritesDirection : Obligations.SetDirWritesDirection :=
  ⟨rfl, rfl, fun _ _ hs => exec_of_legal (legal_of_not_needsReady (by simp) hs)⟩

end Sys2Proof.Machine
end

section
/-! Faults: the legality table, the precise effect of a fault, and the way out of `FAULTED` (spec/60_exceptions.md R202 to
R208). -/
namespace Sys2Proof.Machine

open Sys2Proof

/-! ### How a command faults (R203, R206) -/

/-- The command `i` has ended from `s` in `t` without taking a fault: `LSTATE` is where its completion puts it, and
`FAULT_CODE` is kept (R27, R206). -/
def EndsUnfaulted (i : Instr) (s t : State) : Prop :=
  t.control.lstate = lstateAfter i s.control.lstate ∧ t.control.faultCode = s.control.faultCode

/-- The command `i` has run into `TURN_OVERFLOW` from `s`, after its transaction; `GET_VELOCITY` has read the time before
it (R148, R203). -/
def Overflows (i : Instr) (s t : State) : Prop :=
  ∃ r, (r = s ∨ r = takeNow s) ∧ t = raiseFault .turnOverflow (encode i) (transact r)

theorem EndsUnfaulted.lstate_ne_faulted {i : Instr} {s t : State} (h : EndsUnfaulted i s t)
    (hs : s.control.lstate ≠ .faulted) : t.control.lstate ≠ .faulted :=
  h.1 ▸ lstateAfter_ne_faulted i hs

theorem Overflows.faultCode {i : Instr} {s t : State} (h : Overflows i s t) :
    t.control.faultCode = .turnOverflow := by
  obtain ⟨r, -, rfl⟩ := h
  rfl

/-- An overflow enters `FAULTED` with the command's word and leaves the rest of the control registers, the tracker, the
response and the pin modes alone (R206). -/
theorem Overflows.frame {i : Instr} {s t : State} (h : Overflows i s t) :
    t.tracker = s.tracker ∧ t.response = s.response ∧ t.pins.csMode = s.pins.csMode ∧
      t.pins.clkMode = s.pins.clkMode ∧
      t.control = { s.control with
        lstate := .faulted, busy := false, faultCode := .turnOverflow, faultCmd := encode i } := by
  obtain ⟨r, rfl | rfl, rfl⟩ := h <;> rw [transact_eq] <;> exact ⟨rfl, rfl, rfl, rfl, rfl⟩

/-- A body that is an angle update, before which the time may have been read, overflows or goes on to the rest of its
command; where that rest only answers, the command ends unfaulted (R139, R203). -/
theorem angleUpdate_unfaulted_or_overflow {i : Instr} {rest : AngleStep → State → State} {r s : State}
    (hbody : commandBody i s = withAngleUpdate i rest r) (hr : r = s ∨ r = takeNow s)
    (hi : ∀ l, lstateAfter i l = l) (hrest : ∀ u v, (rest u v).control = { v.control with busy := false }) :
    EndsUnfaulted i s (commandBody i s) ∨ Overflows i s (commandBody i s) := by
  have hstart : r.control = s.control := by rcases hr with rfl | rfl <;> rfl
  rcases withAngleUpdate_cases i rest r with ⟨-, he⟩ | ⟨-, he⟩ <;> rw [hbody, he]
  · refine .inl ⟨?_, ?_⟩ <;> rw [hrest, writeAngle_control, transact_control, hstart]
    exact (hi _).symm
  · exact .inr ⟨r, hr, rfl⟩

theorem configureLines_control (s : State) : (configureLines s).control = s.control :=
  (setClkMode_control ..).trans ((driveClk_control ..).trans ((setCsMode_control ..).trans (driveCs_control ..)))

theorem initBody_control (s : State) :
    (initBody s).control = { s.control with busy := false, lastWrap := .noWrap, lstate := .ready } := by
  show (respond _ _ _ _ (seedTracker _ _ (takeNow (transact (configureLines s))))).control = _
  rw [respond_control, seedTracker_control, takeNow_control, transact_control, configureLines_control]

theorem readFrameBody_control (s : State) : (readFrameBody s).control = { s.control with busy := false } := by
  show (respond _ _ _ _ (transact s)).control = _
  rw [respond_control, transact_control]

theorem initBody_endsUnfaulted (s : State) : EndsUnfaulted .init s (initBody s) := by
  constructor <;> rw [initBody_control]
  rfl

theorem readFrameBody_endsUnfaulted (s : State) : EndsUnfaulted .readFrame s (readFrameBody s) := by
  constructor <;> rw [readFrameBody_control]
  rfl

/-- The body of a command ends unfaulted, or in the `TURN_OVERFLOW` of its angle update. -/
theorem commandBody_unfaulted_or_overflow (i : Instr) (s : State) :
    EndsUnfaulted i s (commandBody i s) ∨ Overflows i s (commandBody i s) := by
  cases i with
  | getAngle =>
    exact angleUpdate_unfaulted_or_overflow (congrFun commandBody_getAngle s) (.inl rfl) (fun _ => rfl) fun _ _ => rfl
  | getVelocity =>
    exact angleUpdate_unfaulted_or_overflow (getVelocityBody_eq s) (.inr rfl) (fun _ => rfl) fun _ _ => rfl
  | calRelZero =>
    exact angleUpdate_unfaulted_or_overflow (congrFun commandBody_calRelZero s) (.inl rfl) (fun _ => rfl) fun _ _ => rfl
  | init => exact .inl (initBody_endsUnfaulted s)
  | readFrame => exact .inl (readFrameBody_endsUnfaulted s)
  | calAbsZero | hasAbsZero | needsAbsSearch | close | setDir => exact .inl ⟨rfl, rfl⟩

/-- Settles O30: a fault is `NOT_READY` before the body, or the overflow of its angle update. -/
theorem faultsArePrecise : Obligations.FaultsArePrecise := by
  intro i s t hs h ht
  rcases exec_cases h with ⟨hf, -⟩ | ⟨-, -, rfl⟩ | ⟨-, -, rfl⟩
  · exact absurd hf hs
  · rcases commandBody_unfaulted_or_overflow i s with hend | hover
    · exact absurd ht (hend.lstate_ne_faulted hs)
    · obtain ⟨htracker, hresponse, hcs, hclk, hcontrol⟩ := hover.frame
      refine ⟨htracker, hresponse, ?_, hcs, hclk, ?_, ?_, .inr hover.faultCode⟩ <;> rw [hcontrol]
  · exact ⟨rfl, rfl, rfl, rfl, rfl, rfl, rfl, .inl ⟨rfl, rfl⟩⟩

/-! ### The legality table (R202) -/

/-- A legal command raises no `NOT_READY` (R202). -/
theorem exec_of_legal_ne_notReady {i : Instr} {s t : State} (hl : Claims.Legal i s)
    (hcode : s.control.faultCode = .noFault) (h : exec i s = .next t) : t.control.faultCode ≠ .notReady := by
  obtain rfl : commandBody i s = t := Host.Outcome.next.inj ((exec_of_legal hl).symm.trans h)
  rcases commandBody_unfaulted_or_overflow i s with ⟨-, hkept⟩ | hover
  · rw [hkept, hcode]
    decide
  · rw [hover.faultCode]
    decide

/-- In `FAULTED` the port accepts no word, so a step without reset waits (R207). -/
theorem step_of_faulted {s : State} (hs : s.control.lstate = .faulted) (hr : s.inputs.rst = none) :
    step s = .next s :=
  unreadyPortWaits s hr (.inr (.inl hs))

/-- Settles O29: `NOT_READY` outside the states of R202, none inside them, and nothing accepted in `FAULTED`. -/
theorem legalityByLifecycleState : Obligations.LegalityByLifecycleState := by
  refine ⟨fun i s hs hi => exec_notReady hi hs, fun i s t hs hcode h => ?_, fun s => step_of_faulted⟩
  rcases hs with hready | ⟨hstate, hi⟩
  · exact exec_of_legal_ne_notReady (legal_of_ready i hready) hcode h
  · exact exec_of_legal_ne_notReady (legal_of_not_needsReady hi hstate) hcode h

/-! ### The way out of `FAULTED` (R208) -/

/-- A step with the reset input asserted is a reset (R205, R241). -/
theorem step_of_reset {s : State} {n : Nat} (hr : s.inputs.rst = some n) :
    step s = .next (applyReset (beforeReset n s)) := by
  rcases step_cases s with ⟨m, hm, he⟩ | ⟨hn, -⟩ | ⟨w, e, hn, -⟩ | ⟨w, i, hn, -⟩
  · cases hr.symm.trans hm
    exact he
  all_goals cases hr.symm.trans hn

/-- Settles O11: without reset the block waits, and with it the control registers take their reset values. -/
theorem faultedUntilReset : Obligations.FaultedUntilReset := fun _ hs =>
  ⟨step_of_faulted hs, fun _ hr => ⟨_, step_of_reset hr, rfl, rfl, rfl⟩⟩

end Sys2Proof.Machine
end
